-- ==== Sys2Proof/Word.lean ====
section
/-! DEFINITION. The words of the hardware (spec/00_scope.md R8, R9): bytes, 16-bit halves, the five
operation names and the 19-bit host request. -/

namespace Sys2Proof

/-- 00_scope.md R8: a byte is 8 bits. A VariableId has the same width. -/
abbrev Byte := BitVec 8

/-- 00_scope.md R8, R9: 16 bits, the width of a VariableValue, of the operand port and of the
result value port. -/
abbrev Half := BitVec 16

/-- 30_encoding.md R50: the five host operations, in the order of their selector codes (R51). -/
inductive Op where
  | getvar
  | getspd
  | geterr
  | exitss
  | setspd
  deriving DecidableEq, Repr, Inhabited

/-- 30_encoding.md R51, format HREQ: what the host puts on the request port, `req_op[2:0]` and
`req_arg[15:0]`. Any of the eight selector codes can be offered. -/
structure Request where
  op  : BitVec 3
  arg : Half
  deriving DecidableEq, Repr

end Sys2Proof
end

