-- ==== Sys2Proof/Config.lean ====
section
/-! DEFINITION. The constants of spec/00_scope.md section 4 and the free values: what the spec leaves
open, as constants with no body, so that nothing in Lean can evaluate them (log 3, 10, 11). -/

namespace Sys2Proof.Config

/-- 00_scope.md R3. -/
def opcExitSafeStart : Byte := 0x83#8
/-- 00_scope.md R3. -/
def opcSetSpeedFwd : Byte := 0x85#8
/-- 00_scope.md R3. -/
def opcSetSpeedRev : Byte := 0x86#8
/-- 00_scope.md R3. -/
def opcReadVar : Byte := 0xA1#8

/-- 00_scope.md R4 (decision D18: a named constant, the literal is unaudited, log 22). -/
def varErrorStatus : Byte := 0#8
/-- 00_scope.md R4 (decision D18: a named constant, the literal is unaudited, log 22). -/
def varTargetSpeed : Byte := 20#8

/-- 00_scope.md R6: the value a fire-and-forget operation returns. -/
def success : Half := 0#16

/-- 00_scope.md R7: the bound of the caller's contract. SPED never compares anything with it. -/
def deviceSpeedMax : Nat := 3200

/-- 00_scope.md R8: the reply length of a variable read. -/
def replyLen : Nat := 2

/-- Free value (log 11): whether SENTINEL lies below every result or above every result. -/
opaque sentinelIsBelow : Bool
/-- Free value (log 11): how far beyond the nearest result SENTINEL lies. -/
opaque sentinelGap : Nat

/-- 00_scope.md R5: the OPEN parameter `SENTINEL`. Every integer that meets R5's constraint, and no
other, is the value of this definition for some choice of the two free values. -/
def sentinel : Int := if sentinelIsBelow then -32769 - sentinelGap else 65536 + sentinelGap

/-- Free value (log 3): `res_val` after an error (10_state.md R16, 93 U10). -/
opaque freeResValOnError : Nat → Half
/-- Free value (log 3): `op_q` outside its live range (10_state.md R13, 93 U11). -/
opaque freeOp : Nat → Op
/-- Free value (log 3): `arg_q` outside its live range (10_state.md R13, 93 U11). -/
opaque freeArg : Nat → Half
/-- Free value (log 3): `res_err` outside its live range (10_state.md R16, 93 U11). -/
opaque freeResErr : Nat → Bool
/-- Free value (log 3): `res_val` outside its live range (10_state.md R16, 93 U11). -/
opaque freeResVal : Nat → Half
/-- Free value (log 12): the two bytes of `rsp` where no reply is held (10_state.md R15). -/
opaque freeRsp : Nat → Byte × Byte
/-- Free value (log 10): chooses the prefix of a command that an `IoErr` write sent (20_memory.md R37). -/
opaque freeSent : Nat → Nat
/-- Free value (log 10): chooses the bytes that an `IoErr` read consumed (20_memory.md R38). -/
opaque freeTaken : Nat → Nat
/-- Free value (log 18): the lanes of `tx_data` beyond `tx_len` (10_state.md R29). -/
opaque freeLane : Nat → Byte

end Sys2Proof.Config
end

