-- ==== Sys2Proof/Syntax.lean ====
section
/-! DEFINITION. The instructions: one constructor per row of spec/opcode_table.json, four wire commands
and five host operations. -/

namespace Sys2Proof

/-- 00_scope.md R1: the instruction set is "the set of five host operations" of 30_encoding.md R50 and
"the four wire command shapes" of R60. Operand bits the spec ignores are kept (log 17). -/
inductive Instr where
  /-- Row EXIT_SAFE_START, format CMD1 (30_encoding.md R52). -/
  | exitSafeStart
  /-- Row SET_SPEED_FWD, format CMD3 (R54), with the magnitude the two data bytes carry. -/
  | setSpeedFwd (m : Nat)
  /-- Row SET_SPEED_REV, format CMD3 (R54), with the magnitude the two data bytes carry. -/
  | setSpeedRev (m : Nat)
  /-- Row READ_VAR, format CMD2 (R53), with the VariableId. -/
  | readVar (id : Byte)
  /-- Row GETVAR, format HREQ (R51): `arg[15:8]` is ignored, `arg[7:0]` is the VariableId. -/
  | getvar (ignored id : Byte)
  /-- Row GETSPD, format HREQ (R51): the operand is ignored. -/
  | getspd (ignored : Half)
  /-- Row GETERR, format HREQ (R51): the operand is ignored. -/
  | geterr (ignored : Half)
  /-- Row EXITSS, format HREQ (R51): the operand is ignored. -/
  | exitss (ignored : Half)
  /-- Row SETSPD, format HREQ (R51): the operand is the speed, 16-bit two's complement. -/
  | setspd (speed : Half)
  deriving DecidableEq, Repr

end Sys2Proof
end

