-- ==== Sys2Proof/WellFormed.lean ====
section
/-! DEFINITION. Which instructions have an encoding that carries all of them. -/

namespace Sys2Proof

/-- 30_encoding.md R57: the two data bytes carry `m[11:0]`; a larger magnitude has no encoding of its
own ("Bits of `m` above bit 11 are dropped without notice"). Every other operand fits its field by its
type. -/
def Instr.wellFormed : Instr → Bool
  | .exitSafeStart => true
  | .setSpeedFwd m => decide (m < 4096)
  | .setSpeedRev m => decide (m < 4096)
  | .readVar _ => true
  | .getvar _ _ => true
  | .getspd _ => true
  | .geterr _ => true
  | .exitss _ => true
  | .setspd _ => true

/-- The four rows whose "level" in the opcode table is "wire". -/
def Instr.isWire : Instr → Bool
  | .exitSafeStart => true
  | .setSpeedFwd _ => true
  | .setSpeedRev _ => true
  | .readVar _ => true
  | .getvar _ _ => false
  | .getspd _ => false
  | .geterr _ => false
  | .exitss _ => false
  | .setspd _ => false

end Sys2Proof
end

