-- ==== Sys2Proof/Decode.lean ====
section
/-! DEFINITION. The decoder, total on any bytes and any host request, rejecting by name; then the
encoder, written from the same tables (spec/30_encoding.md). -/

namespace Sys2Proof

/-- What is decoded: the bytes of a wire command in transmission order, or a host request. -/
inductive Code where
  | wire (bytes : List Byte)
  | request (r : Request)
  deriving DecidableEq, Repr

/-- Why bits are no instruction. -/
inductive DecodeError where
  /-- 30_encoding.md R62: selector codes 5, 6 and 7 are reserved. -/
  | reservedSelector (code : BitVec 3)
  /-- R61: a first byte that is none of the four opcodes. -/
  | unknownOpcode (b : Byte)
  /-- R54, R61: a CMD3 with a must-be-zero bit set in `ll` or `hh`. -/
  | reservedBits (ll hh : Byte)
  /-- R64: fewer bytes than the command's length. -/
  | truncated
  /-- R67: bytes after the command. -/
  | trailingBytes
  deriving DecidableEq, Repr

/-- R51: the selector codes, one row each. -/
def Op.selector : Op → BitVec 3
  | .getvar => 0#3
  | .getspd => 1#3
  | .geterr => 2#3
  | .exitss => 3#3
  | .setspd => 4#3

/-- R51 read the other way; `none` for the reserved codes 5, 6, 7 (R62). -/
def Op.ofSelector (code : BitVec 3) : Option Op :=
  if code = 0#3 then some .getvar
  else if code = 1#3 then some .getspd
  else if code = 2#3 then some .geterr
  else if code = 3#3 then some .exitss
  else if code = 4#3 then some .setspd
  else none

/-- `v[7:0]`. -/
def loByte (v : Half) : Byte := v.extractLsb' 0 8

/-- `v[15:8]`. -/
def hiByte (v : Half) : Byte := v.extractLsb' 8 8

/-- R51: the host operation a selector and its operand stand for. -/
def opInstr (op : Op) (arg : Half) : Instr :=
  match op with
  | .getvar => .getvar (hiByte arg) (loByte arg)
  | .getspd => .getspd arg
  | .geterr => .geterr arg
  | .exitss => .exitss arg
  | .setspd => .setspd arg

/-- R54, R67: the data bytes of a CMD3; `l <= 0x1F` and `h <= 0x7F`, and they carry `l + 32*h`. -/
def parseMagnitude (mk : Nat → Instr) : List Byte → Except DecodeError (Instr × List Byte)
  | ll :: hh :: rest =>
    if ll.toNat ≤ 0x1F ∧ hh.toNat ≤ 0x7F then .ok (mk (ll.toNat + 32 * hh.toNat), rest)
    else .error (.reservedBits ll hh)
  | [_] => .error .truncated
  | [] => .error .truncated

/-- R60, R64: one command from the head of a byte sequence, and the bytes after it. The length follows
from the first byte. -/
def parseCommand : List Byte → Except DecodeError (Instr × List Byte)
  | [] => .error .truncated
  | b :: rest =>
    if b = Config.opcExitSafeStart then .ok (.exitSafeStart, rest)
    else if b = Config.opcSetSpeedFwd then parseMagnitude .setSpeedFwd rest
    else if b = Config.opcSetSpeedRev then parseMagnitude .setSpeedRev rest
    else if b = Config.opcReadVar then
      match rest with
      | id :: rest' => .ok (.readVar id, rest')
      | [] => .error .truncated
    else .error (.unknownOpcode b)

/-- R64: a stream of whole commands, parsed command by command; `fuel` bounds the number of commands. -/
def parseStreamFuel : Nat → List Byte → Except DecodeError (List Instr)
  | _, [] => .ok []
  | 0, _ :: _ => .error .trailingBytes
  | fuel + 1, b :: bs =>
    match parseCommand (b :: bs) with
    | .error e => .error e
    | .ok (i, rest) =>
      match parseStreamFuel fuel rest with
      | .error e => .error e
      | .ok is => .ok (i :: is)

/-- R64: a TX stream read as commands. Each command has at least one byte, so its length is fuel enough. -/
def parseStream (bytes : List Byte) : Except DecodeError (List Instr) :=
  parseStreamFuel bytes.length bytes

/-- The decoder. On the wire side it is `DecodeCmd` of R67, defined on exactly the sequences the encoder
can produce; on the host side it is the table of R51. -/
def decode : Code → Except DecodeError Instr
  | .wire bytes =>
    match parseCommand bytes with
    | .ok (i, []) => .ok i
    | .ok (_, _ :: _) => .error .trailingBytes
    | .error e => .error e
  | .request r =>
    match Op.ofSelector r.op with
    | some op => .ok (opInstr op r.arg)
    | none => .error (.reservedSelector r.op)

/-- R57: `ll = m & 0x1F`. -/
def lowField (m : Nat) : Byte := BitVec.ofNat 8 (m &&& 0x1F)

/-- R57: `hh = (m >> 5) & 0x7F`. -/
def highField (m : Nat) : Byte := BitVec.ofNat 8 ((m >>> 5) &&& 0x7F)

/-- The encoder: the wire formats CMD1, CMD2, CMD3 (R52 to R54, R57) and the host format HREQ (R51). -/
def encode : Instr → Code
  | .exitSafeStart => .wire [Config.opcExitSafeStart]
  | .setSpeedFwd m => .wire [Config.opcSetSpeedFwd, lowField m, highField m]
  | .setSpeedRev m => .wire [Config.opcSetSpeedRev, lowField m, highField m]
  | .readVar id => .wire [Config.opcReadVar, id]
  | .getvar ignored id => .request ⟨Op.getvar.selector, ignored ++ id⟩
  | .getspd ignored => .request ⟨Op.getspd.selector, ignored⟩
  | .geterr ignored => .request ⟨Op.geterr.selector, ignored⟩
  | .exitss ignored => .request ⟨Op.exitss.selector, ignored⟩
  | .setspd speed => .request ⟨Op.setspd.selector, speed⟩

/-- The bytes of a wire code; a host request puts none on the wire. -/
def Code.bytes : Code → List Byte
  | .wire bytes => bytes
  | .request _ => []

/-- R60 (last paragraph): the n bytes of an 8n-bit table word, "byte 0 as its most significant byte". -/
def tableBytes (n w : Nat) : List Byte :=
  (List.range n).map fun k => BitVec.ofNat 8 (w >>> (8 * (n - 1 - k)))

/-- What a word of the opcode table stands for (log 6): 8 and 16 bits are wire commands; a 24-bit word
below 2^19 is a host request (19 bits, the other bits zero), any other a 3-byte wire command, whose first
byte has bit 7 set (R64). -/
def tableCode (nbits w : Nat) : Option Code :=
  if nbits = 8 ∧ w < 2 ^ 8 then some (.wire (tableBytes 1 w))
  else if nbits = 16 ∧ w < 2 ^ 16 then some (.wire (tableBytes 2 w))
  else if (nbits = 19 ∨ nbits = 24) ∧ w < 2 ^ 19 then
    some (.request ⟨BitVec.ofNat 3 (w >>> 16), BitVec.ofNat 16 w⟩)
  else if nbits = 24 ∧ w < 2 ^ 24 then some (.wire (tableBytes 3 w))
  else none

/-- The instruction the decoder reads from a word of the opcode table. -/
def decodeTableWord (nbits w : Nat) : Option Instr :=
  match tableCode nbits w with
  | none => none
  | some c =>
    match decode c with
    | .ok i => some i
    | .error _ => none

/-- The `mask` and `match` of a row of opcode_table.json, over a word whose byte 0 is the most significant
(R60), with the number of bits the row gives its word. -/
structure TableRow where
  bits  : Nat
  mask  : Nat
  value : Nat
  deriving DecidableEq, Repr

/-- The table's row of an instruction. -/
def tableRow : Instr → TableRow
  | .exitSafeStart => ⟨8, 0xFF, 0x83⟩
  | .setSpeedFwd _ => ⟨24, 0xFFE080, 0x850000⟩
  | .setSpeedRev _ => ⟨24, 0xFFE080, 0x860000⟩
  | .readVar _ => ⟨16, 0xFF00, 0xA100⟩
  | .getvar _ _ => ⟨19, 0x70000, 0x00000⟩
  | .getspd _ => ⟨19, 0x70000, 0x10000⟩
  | .geterr _ => ⟨19, 0x70000, 0x20000⟩
  | .exitss _ => ⟨19, 0x70000, 0x30000⟩
  | .setspd _ => ⟨19, 0x70000, 0x40000⟩

/-- A word that a row of the table matches. -/
def TableRow.selects (r : TableRow) (w : Nat) : Bool := decide (w < 2 ^ r.bits ∧ w &&& r.mask = r.value)

/-- R65: the request that one line of this spec's syntax stands for, given its mnemonic and its decimal
operand; an operand out of R65's range, or where there should be none, is no line. The operand port of a GETSPD,
GETERR or EXITSS line may hold anything (R51: ignored); that it is 0x0000 is a DESIGN CHOICE of the model
(log 24). -/
def assemble (mnemonic : String) (operand : Option Int) : Option Request :=
  match operand with
  | some v =>
    if mnemonic = "GETVAR" ∧ 0 ≤ v ∧ v ≤ 255 then some ⟨Op.getvar.selector, BitVec.ofInt 16 v⟩
    else if mnemonic = "SETSPD" ∧ -32768 ≤ v ∧ v ≤ 32767 then
      some ⟨Op.setspd.selector, BitVec.ofInt 16 v⟩
    else none
  | none =>
    if mnemonic = "GETSPD" then some ⟨Op.getspd.selector, 0#16⟩
    else if mnemonic = "GETERR" then some ⟨Op.geterr.selector, 0#16⟩
    else if mnemonic = "EXITSS" then some ⟨Op.exitss.selector, 0#16⟩
    else none

end Sys2Proof
end

