-- ==== Sys2Proof/Machine/State.lean ====
section
/-! DEFINITION. The state of the machine as plain data (spec/10_state.md), and the state after reset. -/

namespace Sys2Proof.Machine

/-- 10_state.md R12: the sequencer's four phases. -/
inductive Phase where
  | idle
  | write
  | read
  | done
  deriving DecidableEq, Repr

/-- 10_state.md R29, 40_transaction.md R73: the transport's answer to `TxWrite`, with any natural count. -/
inductive WriteAnswer where
  | ok (count : Nat)
  | ioErr
  deriving DecidableEq, Repr

/-- 10_state.md R29, 40_transaction.md R75: the transport's answer to `RxRead`, with the count and the
bytes put into the buffer, in arrival order. -/
inductive ReadAnswer where
  | ok (count : Nat) (data : List Byte)
  | ioErr
  deriving DecidableEq, Repr

/-- 00_scope.md section 5: a transport call, `TxWrite(s)` or `RxRead(n)`. -/
inductive Call where
  | write (command : List Byte)
  | read (size : Nat)
  deriving DecidableEq, Repr

/-- 40_transaction.md R78: what the host receives, `(res_err, res_val)`. -/
structure Delivery where
  err : Bool
  val : Half
  deriving DecidableEq, Repr

/-- 60_exceptions.md R110: the four causes, named inside the spec only; no state holds one (R111). -/
inductive Cause where
  | wIoErr
  | wCount
  | rIoErr
  | rCount
  deriving DecidableEq, Repr

/-- 00_scope.md section 5, 40_transaction.md R81: `Result = Ok(v) | SerialError`. -/
inductive Result where
  | ok (v : Int)
  | serialError
  deriving DecidableEq, Repr

/-- The whole state. The first group is SPED's own (10_state.md sections 3 and 6); the second the two
streams (R24); the third the two interfaces as data their owners supply, and records of what crossed them
(R28, R29; log 2, 4, 9, 21); the last field is the model's (log 3). -/
structure State where
  phase         : Phase
  opQ           : Op
  argQ          : Half
  rsp           : Byte × Byte
  resErr        : Bool
  resVal        : Half
  outstanding   : Bool
  tx            : List Byte
  rx            : List Byte
  calls         : List Call
  txAnswers     : List WriteAnswer
  rxAnswers     : List ReadAnswer
  requests      : List Request
  resReady      : Bool
  received      : List Delivery
  refusedOffers : List Request
  draws         : Nat
  deriving DecidableEq, Repr

/-- 10_state.md R27, 70_reset_and_hazards.md R130: `phase = IDLE`, no transport call outstanding. The spec
gives no other register a value: each of those is a named choice (log 1); the environment's data are empty
(log 2), the draw counter zero (log 3). -/
def State.reset : State :=
  { phase := .idle
    opQ := .getvar
    argQ := 0#16
    rsp := (0#8, 0#8)
    resErr := false
    resVal := 0#16
    outstanding := false
    tx := []
    rx := []
    calls := []
    txAnswers := []
    rxAnswers := []
    requests := []
    resReady := false
    received := []
    refusedOffers := []
    draws := 0 }

/-- A machine fault. `SerialError` is none: it is a next state (60_exceptions.md R115). -/
inductive Fault where
  /-- Raised by `step` in WRITE or READ if the command in hand were no row of the opcode table. SPED
  cannot build one (30_encoding.md R61), so no state raises it. Safe. -/
  | commandNotInTable
  deriving DecidableEq, Repr

/-- A refusal: the model gives the case no meaning. -/
inductive Refusal where
  /-- An arm of `exec` whose instruction has no meaning yet. No arm is left so. Safe. -/
  | notModelled (mnemonic : String)
  /-- Raised by the reset event outside IDLE: 70_reset_and_hazards.md R131, "a model should refuse it".
  Safe. -/
  | resetDuringOperation
  deriving DecidableEq, Repr

/-- The outcome of a step of this machine. -/
abbrev Outcome := Host.Outcome State Fault Refusal

end Sys2Proof.Machine
end

