-- ==== Sys2Proof/Machine/Operands.lean ====
section
/-! DEFINITION. Operand forms and the arithmetic of encode and decode (spec/30_encoding.md sections 3 and
4, spec/41_variable_read.md section 2, spec/43_set_speed.md section 2). -/

namespace Sys2Proof.Machine

/-- 41_variable_read.md R88: the signed reading of 16 bits. -/
def s16 (u : Half) : Int :=
  if u.toNat ≤ 32767 then (u.toNat : Int) else (u.toNat : Int) - 65536

/-- 41_variable_read.md R89, 30_encoding.md R59: `b0 + 256*b1`, `b0` the first byte to arrive. -/
def u16 (b0 b1 : Byte) : Half := BitVec.ofNat 16 (b0.toNat + 256 * b1.toNat)

/-- 43_set_speed.md R101: the mathematical absolute value of the speed operand, 0..32768, without wrap. -/
def magnitude (arg : Half) : Nat := (s16 arg).natAbs

/-- 30_encoding.md R60: `Encode(op, arg)`, the command of each host operation. -/
def commandBytes (op : Op) (arg : Half) : List Byte :=
  match op with
  | .getvar => [Config.opcReadVar, loByte arg]
  | .getspd => [Config.opcReadVar, Config.varTargetSpeed]
  | .geterr => [Config.opcReadVar, Config.varErrorStatus]
  | .exitss => [Config.opcExitSafeStart]
  | .setspd =>
    if s16 arg < 0 then
      [Config.opcSetSpeedRev, lowField (magnitude arg), highField (magnitude arg)]
    else
      [Config.opcSetSpeedFwd, lowField (magnitude arg), highField (magnitude arg)]

/-- 30_encoding.md R51 (column "reply read"): which operations read a reply. -/
def expectsReply : Op → Bool
  | .getvar => true
  | .getspd => true
  | .geterr => true
  | .exitss => false
  | .setspd => false

/-- 10_state.md R14: `cmd` is no register; it is `Encode(op_q, arg_q)`. -/
def command (s : State) : List Byte := commandBytes s.opQ s.argQ

/-- 10_state.md R16: how `res_val` is read: two's complement for GETSPD, unsigned otherwise. -/
def reading (op : Op) (val : Half) : Int :=
  match op with
  | .getvar => val.toNat
  | .getspd => s16 val
  | .geterr => val.toNat
  | .exitss => val.toNat
  | .setspd => val.toNat

end Sys2Proof.Machine
end

