-- ==== Sys2Proof/Machine/Flags.lean ====
section
/-! DEFINITION. The one flag, `res_err` (spec/10_state.md R16, R19): the failure conditions that set it
(spec/60_exceptions.md R110), and what a result says to its reader. -/

namespace Sys2Proof.Machine

/-- 40_transaction.md R74, 60_exceptions.md R110: the answer to a write of `n` bytes; anything but `Ok(n)`
is a failure. -/
def judgeWrite (n : Nat) : WriteAnswer → Except Cause Unit
  | .ok k => if k = n then .ok () else .error .wCount
  | .ioErr => .error .wIoErr

/-- 40_transaction.md R76, 60_exceptions.md R110: the answer to the 2-byte read; anything but
`Ok(2, [b0, b1])` is a failure. -/
def judgeRead : ReadAnswer → Except Cause (Byte × Byte)
  | .ok k data =>
    if k = Config.replyLen then
      match data with
      | [b0, b1] => .ok (b0, b1)
      | _ => .error .rCount
    else .error .rCount
  | .ioErr => .error .rIoErr

/-- 10_state.md R16: the result that `(res_err, res_val)` stands for, for the operation it answers. -/
def portResult (op : Op) (err : Bool) (val : Half) : Result :=
  if err then .serialError else .ok (reading op val)

/-- 10_state.md R16: the integer view of a result. -/
def intView : Result → Int
  | .ok v => v
  | .serialError => Config.sentinel

end Sys2Proof.Machine
end

