-- ==== Sys2Proof/Machine/Ops.lean ====
section
/-! DEFINITION. The named operations over the registers and the two streams: one for each rule of
spec/40_transaction.md section 2, with entering the error (spec/60_exceptions.md R115) and leaving it
(R117, R78) beside each other. Each is built from plain record updates named `State.…`. -/

namespace Sys2Proof.Machine

/-! ### Record updates -/

/-- R71's effect. That no call is outstanding for the new operation is written out (log 13). -/
def State.latch (op : Op) (arg : Half) (s : State) : State :=
  { s with opQ := op, argQ := arg, phase := .write, outstanding := false }

/-- R73, R75: a transport call is issued. -/
def State.issue (c : Call) (s : State) : State :=
  { s with outstanding := true, calls := s.calls ++ [c] }

/-- The transport took `sent` into TX and its answer is used up. -/
def State.transmit (sent : List Byte) (rest : List WriteAnswer) (s : State) : State :=
  { s with tx := s.tx ++ sent, txAnswers := rest }

/-- The transport took `taken` bytes from the head of RX and its answer is used up (20_memory.md R38). -/
def State.consume (taken : Nat) (rest : List ReadAnswer) (s : State) : State :=
  { s with rx := s.rx.drop taken, rxAnswers := rest }

/-- R76: `rsp <- [b0, b1]`. -/
def State.setRsp (p : Byte × Byte) (s : State) : State := { s with rsp := p }

/-- R74: the command is out, the reply is to be read. -/
def State.enterRead (s : State) : State := { s with phase := .read, outstanding := false }

/-- R74, R76: `res_err <- 0`, `res_val <- v`, `phase <- DONE`. -/
def State.postOk (v : Half) (s : State) : State :=
  { s with resErr := false, resVal := v, phase := .done, outstanding := false }

/-- R115: `res_err <- 1`, `res_val <- any` (log 3), `phase <- DONE`; nothing is saved. -/
def State.postError (s : State) : State :=
  { s with resErr := true, resVal := Config.freeResValOnError s.draws, phase := .done,
           outstanding := false, draws := s.draws + 1 }

/-- R78: the host has the result; `phase <- IDLE`; the four registers are unspecified (log 3), and `rsp`
holds nothing (10_state.md R15, log 12). -/
def State.handOver (s : State) : State :=
  { s with received := s.received ++ [⟨s.resErr, s.resVal⟩], phase := .idle,
           opQ := Config.freeOp s.draws, argQ := Config.freeArg s.draws,
           resErr := Config.freeResErr s.draws, resVal := Config.freeResVal s.draws,
           rsp := Config.freeRsp s.draws, draws := s.draws + 1 }

/-- 30_encoding.md R62: an offer with a reserved selector is not accepted; the run is marked (log 8). -/
def State.refuseOffer (r : Request) (s : State) : State :=
  { s with refusedOffers := s.refusedOffers ++ [r] }

/-- The host's offers after the present one has been dealt with. -/
def State.dropOffer (s : State) : State := { s with requests := s.requests.tail }

/-! ### Raising the one exception, and the way out of it -/

/-- 60_exceptions.md R115: `raise SerialError(cause)`. The cause is recorded nowhere (R111). -/
def raiseSerialError (_cause : Cause) (s : State) : State := s.postError

/-- R78 DELIVER, and R117: there is no return-from-trap; the host takes a failed result as it takes any
other. While it does not, SPED waits in DONE. -/
def deliver (s : State) : State :=
  if s.phase = .done ∧ s.resReady = true then s.handOver else s

/-! ### The rules of the transaction -/

/-- R71 ACCEPT. While `phase != IDLE` no request is accepted. -/
def accept (op : Op) (arg : Half) (s : State) : State :=
  if s.phase = .idle then s.latch op arg else s

/-- R73 WRITE-ISSUE: `TxWrite(cmd)`, the whole command in one call, once. -/
def writeIssue (cmd : List Byte) (s : State) : State :=
  if s.phase = .write ∧ s.outstanding = false then s.issue (.write cmd) else s

/-- 20_memory.md R37 (D11): which bytes of `cmd` reached TX: the first `k`; on `IoErr` any prefix. -/
def sentBytes (cmd : List Byte) (draw : Nat) : WriteAnswer → List Byte
  | .ok k => cmd.take k
  | .ioErr => cmd.take (Config.freeSent draw % (cmd.length + 1))

/-- R74 WRITE-ANSWER, and R77 where no answer has come. `reply` says whether the command is answered by
two bytes (log 19). -/
def writeAnswer (cmd : List Byte) (reply : Bool) (s : State) : State :=
  if s.phase = .write ∧ s.outstanding = true then
    match s.txAnswers with
    | [] => s
    | a :: rest =>
      let sent := s.transmit (sentBytes cmd s.draws a) rest
      match judgeWrite cmd.length a with
      | .error cause => raiseSerialError cause sent
      | .ok () => if reply then sent.enterRead else sent.postOk Config.success
  else s

/-- R75 READ-ISSUE: `RxRead(2)`, once. -/
def readIssue (s : State) : State :=
  if s.phase = .read ∧ s.outstanding = false then s.issue (.read Config.replyLen) else s

/-- 20_memory.md R38 (D12): how many bytes left RX: exactly `k`; on `IoErr` any number 0..2. -/
def takenCount (draw : Nat) : ReadAnswer → Nat
  | .ok k _ => k
  | .ioErr => Config.freeTaken draw % (Config.replyLen + 1)

/-- R76 READ-ANSWER, and R77 where no answer has come. -/
def readAnswer (s : State) : State :=
  if s.phase = .read ∧ s.outstanding = true then
    match s.rxAnswers with
    | [] => s
    | r :: rest =>
      let taken := s.consume (takenCount s.draws r) rest
      match judgeRead r with
      | .error cause => raiseSerialError cause (taken.setRsp (Config.freeRsp s.draws))
      | .ok (b0, b1) => (taken.setRsp (b0, b1)).postOk (u16 b0 b1)
  else s

/-! ### Sequences of rules -/

/-- R73, R74: hand the command over and take the answer; no reply is read. -/
def sendOnly (cmd : List Byte) (s : State) : State :=
  writeAnswer cmd false (writeIssue cmd s)

/-- R73 to R76: hand the command over, then read the reply, as far as the answers present allow. In READ
it goes on with the read (log 5). -/
def sendAndReceive (cmd : List Byte) (s : State) : State :=
  readAnswer (readIssue (writeAnswer cmd true (writeIssue cmd s)))

/-- R70: one host operation, from ACCEPT on, as far as the answers present allow (log 5). -/
def operate (op : Op) (arg : Half) (s : State) : State :=
  if s.phase = .idle then
    if expectsReply op then sendAndReceive (commandBytes op arg) (accept op arg s)
    else sendOnly (commandBytes op arg) (accept op arg s)
  else s

end Sys2Proof.Machine
end

