-- ==== Sys2Proof/Machine/ExitSafeStart.lean ====
section
/-! DEFINITION. Exit safe start (spec/42_exit_safe_start.md): EXIT_SAFE_START on the wire, EXITSS on the
host side. -/

namespace Sys2Proof.Machine

/-- EXIT_SAFE_START (30_encoding.md R52, 42_exit_safe_start.md R95): the transport half of an EXITSS in
hand, `TxWrite([0x83])`; no read (log 7). -/
def execExitSafeStart (s : State) : Outcome :=
  .next (sendOnly [Config.opcExitSafeStart] s)

/-- EXITSS (R95). -/
def execExitss (ignored : Half) (s : State) : Outcome :=
  .next (operate .exitss ignored s)

end Sys2Proof.Machine
end

