-- ==== Sys2Proof/Machine/SetSpeed.lean ====
section
/-! DEFINITION. Set target speed (spec/43_set_speed.md): SET_SPEED_FWD and SET_SPEED_REV on the wire,
SETSPD on the host side. -/

namespace Sys2Proof.Machine

/-- SET_SPEED_FWD (30_encoding.md R54, R57; 43_set_speed.md R100): the transport half of a SETSPD in hand
with `s >= 0`, `TxWrite([0x85, ll, hh])`; no read (log 7). -/
def execSetSpeedFwd (m : Nat) (s : State) : Outcome :=
  .next (sendOnly [Config.opcSetSpeedFwd, lowField m, highField m] s)

/-- SET_SPEED_REV (the same rules): the transport half of a SETSPD in hand with `s < 0`. -/
def execSetSpeedRev (m : Nat) (s : State) : Outcome :=
  .next (sendOnly [Config.opcSetSpeedRev, lowField m, highField m] s)

/-- SETSPD (R100): every 16-bit operand is encoded and sent; the range is not checked (R103). -/
def execSetspd (speed : Half) (s : State) : Outcome :=
  .next (operate .setspd speed s)

end Sys2Proof.Machine
end

