-- ==== Sys2Proof/Machine/VariableRead.lean ====
section
/-! DEFINITION. The variable read family (spec/41_variable_read.md): READ_VAR on the wire, GETVAR, GETSPD
and GETERR on the host side. -/

namespace Sys2Proof.Machine

/-- READ_VAR (30_encoding.md R53, 41_variable_read.md R85): the transport half of a variable read in hand,
`TxWrite([0xA1, id])`, then `RxRead(2)` (log 7). -/
def execReadVar (id : Byte) (s : State) : Outcome :=
  .next (sendAndReceive [Config.opcReadVar, id] s)

/-- GETVAR (41_variable_read.md R85). -/
def execGetvar (ignored id : Byte) (s : State) : Outcome :=
  .next (operate .getvar (ignored ++ id) s)

/-- GETSPD (R86): the wire half of GETVAR 20; the 16 bits stay as they came, and are read signed
(10_state.md R16), after `res_err` has been tested. -/
def execGetspd (ignored : Half) (s : State) : Outcome :=
  .next (operate .getspd ignored s)

/-- GETERR (R87): GETVAR 0. -/
def execGeterr (ignored : Half) (s : State) : Outcome :=
  .next (operate .geterr ignored s)

end Sys2Proof.Machine
end

