-- ==== Sys2Proof/Machine/Dispatch.lean ====
section
/-! DEFINITION. One arm per instruction. -/

namespace Sys2Proof.Machine

def exec (i : Instr) (s : State) : Host.Outcome State Fault Refusal :=
  match i with
  | .exitSafeStart => Sys2Proof.Machine.execExitSafeStart s
  | .setSpeedFwd m => Sys2Proof.Machine.execSetSpeedFwd m s
  | .setSpeedRev m => Sys2Proof.Machine.execSetSpeedRev m s
  | .readVar id => Sys2Proof.Machine.execReadVar id s
  | .getvar ignored id => Sys2Proof.Machine.execGetvar ignored id s
  | .getspd ignored => Sys2Proof.Machine.execGetspd ignored s
  | .geterr ignored => Sys2Proof.Machine.execGeterr ignored s
  | .exitss ignored => Sys2Proof.Machine.execExitss ignored s
  | .setspd speed => Sys2Proof.Machine.execSetspd speed s

end Sys2Proof.Machine
end

