-- ==== Sys2Proof/Machine/Fetch.lean ====
section
/-! DEFINITION. Where the next instruction comes from (log 6). SPED fetches no instructions
(spec/10_state.md R18, R26): in IDLE the host's offer is the instruction, in WRITE and READ the command in
hand is. -/

namespace Sys2Proof.Machine

/-- The code the next step runs, if there is one: the offer in IDLE (10_state.md R28), the command in hand
in WRITE and READ (R14). In DONE there is none: the host's move is next (40_transaction.md R78). -/
def codeAt (s : State) : Option Code :=
  match s.phase with
  | .idle => s.requests.head?.map Code.request
  | .write => some (.wire (command s))
  | .read => some (.wire (command s))
  | .done => none

/-- What a step does around the instruction: the offer being dealt with leaves the port. -/
def takeCode (s : State) : State :=
  match s.phase with
  | .idle => s.dropOffer
  | .write => s
  | .read => s
  | .done => s

/-- A code that is no instruction: an offer with a reserved selector is refused and SPED stays in IDLE
(30_encoding.md R62, log 8); a command in hand always is an instruction (R61). -/
def rejectCode (c : Code) (s : State) : Outcome :=
  match c with
  | .request r => .next (s.refuseOffer r)
  | .wire _ => .fault .commandNotInTable

/-- An operation whose command a wire instruction is (30_encoding.md R60, "emitted by"). -/
def emitter : Instr → Option (Op × Half)
  | .exitSafeStart => some (.exitss, 0#16)
  | .setSpeedFwd m => some (.setspd, BitVec.ofNat 16 m)
  | .setSpeedRev m => some (.setspd, if m = 0 then 0xF000#16 else BitVec.ofInt 16 (-(m : Int)))
  | .readVar id => some (.getvar, 0#8 ++ id)
  | .getvar _ _ => none
  | .getspd _ => none
  | .geterr _ => none
  | .exitss _ => none
  | .setspd _ => none

/-- Put a code where the next step finds it (log 6): a request is offered to an idle SPED; for a wire
command an operation that emits it is latched and waits in WRITE. -/
def placeCode (c : Code) (s : State) : State :=
  match c with
  | .request r => { s with phase := .idle, requests := r :: s.requests }
  | .wire bytes =>
    match decode (.wire bytes) with
    | .error _ => s
    | .ok i =>
      match emitter i with
      | none => s
      | some (op, arg) => s.latch op arg

/-- A word of the opcode table, put where the next step finds it. -/
def placeWord (s : State) (nbits w : Nat) : State :=
  match tableCode nbits w with
  | none => s
  | some c => placeCode c s

end Sys2Proof.Machine
end

