-- ==== Sys2Proof/Machine/Step.lean ====
section
/-! DEFINITION. One step: run the instruction that is next, or, where there is none, let the host take the
result (spec/40_transaction.md R71 to R78; log 5). -/

namespace Sys2Proof.Machine

def step (s : State) : Host.Outcome State Fault Refusal :=
  match codeAt s with
  | none => .next (deliver s)
  | some c =>
    match decode c with
    | .ok i => exec i (takeCode s)
    | .error _ => rejectCode c (takeCode s)

/-- The word of an instruction stored where `step` finds its next instruction (log 6). -/
def State.withFetchWord (s : State) (nbits w : Nat) : State := placeWord s nbits w

end Sys2Proof.Machine
end

