-- ==== Sys2Proof/Machine/Environment.lean ====
section
/-! DEFINITION. The moves of the other agents (spec/10_state.md section 2): each may fall between any two
steps of SPED (spec/70_reset_and_hazards.md R146). -/

namespace Sys2Proof.Machine

/-- What the host, the transport and the device can do to the machine between two steps. -/
inductive Event where
  /-- R28: the host offers a request; it is held until SPED is idle (log 9). -/
  | offer (r : Request)
  /-- R28: the host sets `res_ready`. -/
  | ready (b : Bool)
  /-- R73, R74: the transport's next answer to a write. -/
  | answerWrite (a : WriteAnswer)
  /-- R75, R76: the transport's next answer to a read. -/
  | answerRead (r : ReadAnswer)
  /-- R22: the device's bytes arrive in RX, asked for or not. -/
  | arrive (bytes : List Byte)
  /-- R130, R131: reset. -/
  | reset
  deriving DecidableEq, Repr

/-- 70_reset_and_hazards.md R130, R131: reset reaches nothing outside SPED; `phase = IDLE`, no call
outstanding, every other register unspecified (log 3). During an operation it is refused (R131, log 16). -/
def resetEvent (s : State) : Outcome :=
  if s.phase = .idle then
    .next { s with phase := .idle, outstanding := false,
                   opQ := Config.freeOp s.draws, argQ := Config.freeArg s.draws,
                   resErr := Config.freeResErr s.draws, resVal := Config.freeResVal s.draws,
                   rsp := Config.freeRsp s.draws, draws := s.draws + 1 }
  else .refused .resetDuringOperation

/-- The state after a move of the environment. -/
def applyEvent (e : Event) (s : State) : Outcome :=
  match e with
  | .offer r => .next { s with requests := s.requests ++ [r] }
  | .ready b => .next { s with resReady := b }
  | .answerWrite a => .next { s with txAnswers := s.txAnswers ++ [a] }
  | .answerRead r => .next { s with rxAnswers := s.rxAnswers ++ [r] }
  | .arrive bytes => .next { s with rx := s.rx ++ bytes }
  | .reset => resetEvent s

end Sys2Proof.Machine
end

