-- ==== Sys2Proof/Machine/Ports.lean ====
section
/-! DEFINITION. The suggested signals of spec/10_state.md R28 and R29: outputs as functions of the state,
inputs as the answers they stand for (log 18). -/

namespace Sys2Proof.Machine

/-- R12: the numeric codes of the phases. -/
def Phase.code : Phase → BitVec 2
  | .idle => 0#2
  | .write => 1#2
  | .read => 2#2
  | .done => 3#2

/-- R28: `req_ready = (phase == IDLE)`. -/
def reqReady (s : State) : Bool := decide (s.phase = .idle)

/-- R28: `res_valid = (phase == DONE)`. -/
def resValid (s : State) : Bool := decide (s.phase = .done)

/-- R29: the write call is presented while it is outstanding. -/
def txValid (s : State) : Bool := decide (s.phase = .write) && s.outstanding

/-- R29: `tx_len`, 1..3. What it carries while `tx_valid` is 0 is open in R29; that it is the length of
`Encode(op_q, arg_q)` there too is a DESIGN CHOICE of the model (log 23). -/
def txLen (s : State) : BitVec 2 := BitVec.ofNat 2 (command s).length

/-- R29, D16: `tx_data`, byte `s[0]` in bits 7:0; lanes beyond `tx_len` are free values. What it carries while
`tx_valid` is 0 is open in R29; that it is `Encode(op_q, arg_q)` there too is a DESIGN CHOICE of the model
(log 23). -/
def txData (s : State) : BitVec 24 :=
  (command s).getD 2 (Config.freeLane (2 * s.draws)) ++
    (command s).getD 1 (Config.freeLane (2 * s.draws + 1)) ++ (command s).getD 0 0#8

/-- R29: the read call is presented while it is outstanding; the buffer length is always 2. -/
def rxValid (s : State) : Bool := decide (s.phase = .read) && s.outstanding

/-- R29: the answer that `tx_err` and `tx_count[1:0]` stand for when `tx_done` is raised. -/
def WriteAnswer.ofPort (txErr : Bool) (txCount : BitVec 2) : WriteAnswer :=
  if txErr then .ioErr else .ok txCount.toNat

/-- R29: the answer that `rx_err`, `rx_count[1:0]` and `rx_data[15:0]` stand for when `rx_done` is raised;
the first byte to arrive is in bits 7:0, and `min(k, 2)` bytes are data. -/
def ReadAnswer.ofPort (rxErr : Bool) (rxCount : BitVec 2) (rxData : Half) : ReadAnswer :=
  if rxErr then .ioErr
  else .ok rxCount.toNat ([loByte rxData, hiByte rxData].take rxCount.toNat)

end Sys2Proof.Machine
end

