-- ==== Sys2Proof/Machine/Transaction.lean ====
section
/-! DEFINITION. The transaction's two forms in spec/40_transaction.md: `Run` as a function (R70) and the
sequencer, one rule at a time (R71 to R78). -/

namespace Sys2Proof.Machine

/-- R70: `Run(op, arg)` with the transport's answers to the write and to the read, `none` for an answer
that never comes; the result (`none` if it never returns) and the calls made, in order. -/
def run (op : Op) (arg : Half) (a : Option WriteAnswer) (r : Option ReadAnswer) :
    Option Result × List Call :=
  let cmd := commandBytes op arg
  match a with
  | none => (none, [.write cmd])
  | some a =>
    match judgeWrite cmd.length a with
    | .error _ => (some .serialError, [.write cmd])
    | .ok () =>
      match op with
      | .exitss => (some (.ok 0), [.write cmd])
      | .setspd => (some (.ok 0), [.write cmd])
      | .getvar | .getspd | .geterr =>
        match r with
        | none => (none, [.write cmd, .read 2])
        | some r =>
          match judgeRead r with
          | .error _ => (some .serialError, [.write cmd, .read 2])
          | .ok (b0, b1) => (some (.ok (reading op (u16 b0 b1))), [.write cmd, .read 2])

/-- 70_reset_and_hazards.md R146: one rule of R71 to R78 as one atomic step. Where no rule is enabled (no
offer, no answer, result not taken) the state stays as it is (R77, R78, 60_exceptions.md R125). -/
def tick (s : State) : State :=
  match s.phase with
  | .idle =>
    match s.requests with
    | [] => s
    | r :: _ =>
      match Op.ofSelector r.op with
      | some op => accept op r.arg s.dropOffer
      | none => s.dropOffer.refuseOffer r
  | .write =>
    if s.outstanding then writeAnswer (command s) (expectsReply s.opQ) s
    else writeIssue (command s) s
  | .read => if s.outstanding then readAnswer s else readIssue s
  | .done => deliver s

/-- `n` rules in a row. -/
def ticks : Nat → State → State
  | 0, s => s
  | n + 1, s => ticks n (tick s)

end Sys2Proof.Machine
end

