-- ==== Sys2Proof/Safety.lean ====
section
/-! DEFINITION. What claims about the machine are stated in: the invariant every step keeps, and the
premises on operands, transport and streams that the spec leaves to their owners. -/

namespace Sys2Proof.Machine

/-- A sequence of bytes that is exactly one command of the opcode table (spec/30_encoding.md R60, R67). -/
def isCommand (bytes : List Byte) : Bool :=
  match decode (.wire bytes) with
  | .ok _ => true
  | .error _ => false

/-- A READ_VAR command, the only one that is answered (R55). -/
def isReadCommand (bytes : List Byte) : Bool :=
  match decode (.wire bytes) with
  | .ok (.readVar _) => true
  | .ok _ => false
  | .error _ => false

/-- 40_transaction.md R79, 30_encoding.md R61: a record of calls in which every write is one whole command
of the table and every read is a 2-byte read directly after the READ_VAR it belongs to. `prev` is the
write a read may still follow. -/
def callsOrdered (prev : Option (List Byte)) : List Call → Bool
  | [] => true
  | .write cmd :: rest => isCommand cmd && callsOrdered (some cmd) rest
  | .read n :: rest =>
    (match prev with
      | some cmd => isReadCommand cmd
      | none => false) && decide (n = Config.replyLen) && callsOrdered none rest

/-- The invariant. It rules out states no run reaches: a call outstanding outside WRITE and READ
(10_state.md R29), READ entered for an operation without a reply (40_transaction.md R74), a posted result
that is not what R74 or R76 post, and a record of calls that breaks R79. -/
structure SequencerInv (s : State) : Prop where
  call_only_when_busy : s.outstanding = true → s.phase = .write ∨ s.phase = .read
  read_is_expected : s.phase = .read → expectsReply s.opQ = true
  posted_success : s.phase = .done → s.resErr = false → expectsReply s.opQ = false →
    s.resVal = Config.success
  posted_value : s.phase = .done → s.resErr = false → expectsReply s.opQ = true →
    s.resVal = u16 s.rsp.1 s.rsp.2
  calls_in_order : callsOrdered none s.calls = true
  write_in_record : s.phase = .write → s.outstanding = true →
    s.calls.getLast? = some (.write (command s))
  write_before_read : s.phase = .read → s.outstanding = false →
    s.calls.getLast? = some (.write (command s))
  read_in_record : s.phase = .read → s.outstanding = true →
    s.calls.getLast? = some (.read Config.replyLen)

/-- 00_scope.md R7: the caller's contract for SETSPD; SPED does not check it. -/
def inContract (speed : Half) : Bool := decide ((s16 speed).natAbs ≤ Config.deviceSpeedMax)

/-- 70_reset_and_hazards.md R134, the half about TX: no partial command in TX; what it holds is whole
commands, `is`. -/
def TxHoldsCommands (s : State) (is : List Instr) : Prop := parseStream s.tx = .ok is

/-- 20_memory.md R42 (log 20): a read answer that a reliable transport can give, the bytes at the head of RX in
arrival order. -/
def FaithfulRead (s : State) (r : ReadAnswer) : Prop :=
  ∀ k data, r = .ok k data → k ≤ s.rx.length ∧ data = s.rx.take (min k Config.replyLen)

/-- The registers of SPED that R71 to R78 write, alike in two states. -/
def sameRegisters (s t : State) : Prop :=
  t.phase = s.phase ∧ t.opQ = s.opQ ∧ t.argQ = s.argQ ∧ t.rsp = s.rsp ∧ t.resErr = s.resErr ∧
    t.resVal = s.resVal ∧ t.outstanding = s.outstanding

/-- What the host owns, alike in two states. -/
def sameHostSide (s t : State) : Prop :=
  t.requests = s.requests ∧ t.resReady = s.resReady ∧ t.received = s.received ∧
    t.refusedOffers = s.refusedOffers

/-- The streams, the calls and the answers still to come, alike in two states. -/
def sameTransportSide (s t : State) : Prop :=
  t.tx = s.tx ∧ t.rx = s.rx ∧ t.calls = s.calls ∧ t.txAnswers = s.txAnswers ∧
    t.rxAnswers = s.rxAnswers

/-- 40_transaction.md R77: a call has been issued and no answer to it has come. -/
def Unanswered (s : State) : Prop :=
  s.outstanding = true ∧
    ((s.phase = .write ∧ s.txAnswers = []) ∨ (s.phase = .read ∧ s.rxAnswers = []))

/-- The moves of the environment that are neither an answer of the transport nor a reset. -/
def Event.isHostOrDevice : Event → Bool
  | .offer _ => true
  | .ready _ => true
  | .arrive _ => true
  | .answerWrite _ => false
  | .answerRead _ => false
  | .reset => false

/-- The calls one state has made beyond those of another: `t` has made exactly `cs` more. -/
def MadeCalls (s t : State) (cs : List Call) : Prop := t.calls = s.calls ++ cs

end Sys2Proof.Machine
end

