-- ==== Sys2Proof/Certificates/Slice0/Obligations.lean ====
section
/-! DEFINITION. The statements for the provers. "The offer" and "the answers" are the environment's data
in State (log 4, 9). A register a rule calls unspecified is named in no conclusion. -/

open Sys2Proof Sys2Proof.Machine

/-! ### Encodings -/

/-- Words written out from the patterns of opcode_table.json (30_encoding.md R51 to R54, R60) are read as
the instructions they stand for, and words outside the table as none. -/
def Obligations.TableWordsDecodeToTheirRows : Prop :=
  decodeTableWord 8 0x83 = some .exitSafeStart ∧
  decodeTableWord 24 0x850403 = some (.setSpeedFwd 100) ∧
  decodeTableWord 24 0x860064 = some (.setSpeedRev 3200) ∧
  decodeTableWord 16 0xA114 = some (.readVar 20#8) ∧
  decodeTableWord 24 0x00AB14 = some (.getvar 0xAB#8 0x14#8) ∧
  decodeTableWord 24 0x011234 = some (.getspd 0x1234#16) ∧
  decodeTableWord 24 0x02FFFF = some (.geterr 0xFFFF#16) ∧
  decodeTableWord 24 0x030000 = some (.exitss 0#16) ∧
  decodeTableWord 24 0x04F380 = some (.setspd 0xF380#16) ∧
  decodeTableWord 24 0x050000 = none ∧
  decodeTableWord 24 0x852000 = none ∧
  decodeTableWord 24 0x850080 = none ∧
  decodeTableWord 8 0x84 = none

/-- The masks of opcode_table.json against the decoder, for every word: a word decodes, and to an instruction
of the row whose mask and match select it; and a word no row selects does not decode. -/
def Obligations.TableMasksSelectTheDecodedRow : Prop :=
  (∀ (w : Nat) (i : Instr), decodeTableWord 8 w = some i ∨ decodeTableWord 16 w = some i ∨
    decodeTableWord 19 w = some i ∨ decodeTableWord 24 w = some i →
    (tableRow i).selects w = true) ∧
  (∀ (w : Nat) (i : Instr), (tableRow i).selects w = true →
    ∃ j, decodeTableWord (tableRow i).bits w = some j ∧ tableRow j = tableRow i)

/-- Decoding the encoding of a well-formed instruction gives it back, at every value of every operand. -/
def Obligations.DecodeOfEncodeIsIdentity : Prop :=
  ∀ i : Instr, i.wellFormed = true → decode (encode i) = .ok i

/-- Each code has one meaning: what decodes is the encoding of what it decodes to, which is well formed. -/
def Obligations.EncodeOfDecodeIsIdentity : Prop :=
  ∀ (c : Code) (i : Instr), decode c = .ok i → encode i = c ∧ i.wellFormed = true

/-- 30_encoding.md section 6: a stream of whole commands parses into exactly those commands. -/
def Obligations.StreamOfCommandsParsesUniquely : Prop :=
  ∀ is : List Instr, (∀ i ∈ is, i.isWire = true ∧ i.wellFormed = true) →
    parseStream (is.flatMap fun i => (encode i).bytes) = .ok is

/-- 30_encoding.md R57, the split of the magnitude into two data bytes. -/
def Obligations.DataBytesCarryTheLowTwelveBits : Prop :=
  ∀ m : Nat,
    lowField m = BitVec.ofNat 8 (m &&& 0x1F) ∧
    highField m = BitVec.ofNat 8 ((m >>> 5) &&& 0x7F) ∧
    lowField m = ((BitVec.ofNat 12 m).extractLsb' 0 5).setWidth 8 ∧
    highField m = ((BitVec.ofNat 12 m).extractLsb' 5 7).setWidth 8 ∧
    lowField (m % 4096) = lowField m ∧ highField (m % 4096) = highField m ∧
    (lowField m).toNat + 32 * (highField m).toNat = m % 4096 ∧
    (m ≤ 3200 → (lowField m).toNat + 32 * (highField m).toNat = m)

/-- 41_variable_read.md R89, the unsigned assembly of a reply. -/
def Obligations.ReplyAssemblyIsExactAndBijective : Prop :=
  (∀ b0 b1 : Byte, (u16 b0 b1).toNat = b0.toNat + 256 * b1.toNat) ∧
  (∀ v : Half, ∃ p : Byte × Byte, u16 p.1 p.2 = v ∧ ∀ q : Byte × Byte, u16 q.1 q.2 = v → q = p) ∧
  (∀ b0 b1 : Byte, u16 b1 b0 = u16 b0 b1 → b0 = b1) ∧
  u16 0x01#8 0x00#8 = 1#16 ∧ u16 0x01#8 0x00#8 ≠ 256#16

/-- 41_variable_read.md R88, the signed reading of a reply. -/
def Obligations.SignedReadingIsTwosComplement : Prop :=
  (∀ u : Half, u.toNat ≤ 32767 → s16 u = u.toNat) ∧
  (∀ u : Half, 32768 ≤ u.toNat → s16 u = (u.toNat : Int) - 65536) ∧
  (∀ u : Half, -32768 ≤ s16 u ∧ s16 u ≤ 32767 ∧ (s16 u - u.toNat) % 65536 = 0) ∧
  (∀ u v : Half, s16 u = s16 v → u = v) ∧
  (∀ v : Int, -32768 ≤ v → v ≤ 32767 → ∃ u : Half, s16 u = v ∧
    (u.toNat : Int) = v % 65536 ∧ (u.toNat : Int) = if 0 ≤ v then v else v + 65536) ∧
  s16 0#16 = 0 ∧ s16 32767#16 = 32767 ∧ s16 32768#16 = -32768 ∧ s16 65535#16 = -1 ∧
  s16 0xF380#16 = -3200 ∧ s16 0x0C80#16 = 3200

/-- 43_set_speed.md R101, sign and zero. -/
def Obligations.SignOfTheSpeedSelectsTheOpcode : Prop :=
  (∀ s : Half, 0 ≤ s16 s → commandBytes .setspd s =
    [0x85#8, BitVec.ofNat 8 (magnitude s &&& 0x1F), BitVec.ofNat 8 ((magnitude s >>> 5) &&& 0x7F)]) ∧
  (∀ s : Half, s16 s < 0 → commandBytes .setspd s =
    [0x86#8, BitVec.ofNat 8 (magnitude s &&& 0x1F), BitVec.ofNat 8 ((magnitude s >>> 5) &&& 0x7F)]) ∧
  (∀ s : Half, (magnitude s : Int) = |s16 s| ∧ magnitude s ≤ 32768) ∧
  (∀ s : Half, commandBytes .setspd s =
    (if s16 s < 0 then 0x86#8 else 0x85#8) ::
      [lowField (magnitude s % 4096), highField (magnitude s % 4096)]) ∧
  commandBytes .setspd 0#16 = [0x85#8, 0x00#8, 0x00#8]

/-- 43_set_speed.md R102, exactness in the contract range. -/
def Obligations.SpeedCommandsAreExactUpTo4095 : Prop :=
  (∀ s : Half, magnitude s ≤ 4095 →
    (lowField (magnitude s)).toNat + 32 * (highField (magnitude s)).toNat = magnitude s ∧
    (lowField (magnitude s)).toNat ≤ 31 ∧ (highField (magnitude s)).toNat ≤ 127) ∧
  (∀ s : Half, inContract s = true → (highField (magnitude s)).toNat ≤ 100) ∧
  (∀ s s' : Half, magnitude s ≤ 4095 → magnitude s' ≤ 4095 →
    commandBytes .setspd s = commandBytes .setspd s' → s = s') ∧
  (∀ s : Half, ∃ opcode ll hh : Byte, commandBytes .setspd s = [opcode, ll, hh] ∧
    ll.extractLsb' 5 3 = 0#3 ∧ ll.msb = false ∧ hh.msb = false)

/-- 43_set_speed.md section 2: outside the contract range nothing is checked, and a magnitude of 4096 or
more is sent as its remainder modulo 4096. The vectors are the spec's. -/
def Obligations.LargeSpeedsAliasModulo4096 : Prop :=
  (∀ s s' : Half, (s16 s < 0 ↔ s16 s' < 0) → magnitude s % 4096 = magnitude s' % 4096 →
    commandBytes .setspd s = commandBytes .setspd s') ∧
  commandBytes .setspd 4096#16 = commandBytes .setspd 0#16 ∧
  commandBytes .setspd 4097#16 = [0x85#8, 0x01#8, 0x00#8] ∧
  commandBytes .setspd 8000#16 = [0x85#8, 0x00#8, 0x7A#8] ∧
  commandBytes .setspd 32767#16 = [0x85#8, 0x1F#8, 0x7F#8]

/-- 43_set_speed.md R104, the most negative operand, by either way of negating it. -/
def Obligations.MostNegativeSpeedIsReverseZero : Prop :=
  s16 0x8000#16 = -32768 ∧ magnitude 0x8000#16 = 32768 ∧
  lowField 32768 = 0#8 ∧ highField 32768 = 0#8 ∧
  commandBytes .setspd 0x8000#16 = [0x86#8, 0x00#8, 0x00#8] ∧
  -0x8000#16 = 0x8000#16 ∧
  [0x86#8, lowField (-0x8000#16).toNat, highField (-0x8000#16).toNat] = [0x86#8, 0x00#8, 0x00#8]

/-- 43_set_speed.md R105: opposite speeds differ in the opcode only, and the wire value is sign and
magnitude where the reply is two's complement. -/
def Obligations.OppositeSpeedsDifferInTheOpcodeOnly : Prop :=
  (∀ s : Half, 1 ≤ s16 s → ∃ ll hh : Byte,
    commandBytes .setspd s = [0x85#8, ll, hh] ∧ commandBytes .setspd (-s) = [0x86#8, ll, hh]) ∧
  s16 0xFF9C#16 = -100 ∧ commandBytes .setspd 0xFF9C#16 = [0x86#8, 0x04#8, 0x03#8] ∧
  s16 (u16 0x9C#8 0xFF#8) = -100

/-- 30_encoding.md section 8: reading SETSPD's command back recovers the direction and the magnitude modulo
4096; so the whole speed for -4095..4095, and `SET_SPEED_REV 0` for no speed but negative multiples of 4096. -/
def Obligations.SpeedCommandReadsBack : Prop :=
  (∀ s : Half, decode (.wire (commandBytes .setspd s)) =
    .ok (if s16 s < 0 then .setSpeedRev (magnitude s % 4096) else .setSpeedFwd (magnitude s % 4096))) ∧
  (∀ s : Half, decode (.wire (commandBytes .setspd s)) = .ok (.setSpeedRev 0) ↔
    s16 s < 0 ∧ magnitude s % 4096 = 0)

/-- 30_encoding.md sections 4 to 6: for every operation and operand the command is one row of the wire
table, of the operation's length, and a READ_VAR exactly where a reply is read. -/
def Obligations.EveryCommandIsATableRow : Prop :=
  ∀ (op : Op) (arg : Half),
    (∃ i : Instr, i.isWire = true ∧ i.wellFormed = true ∧ encode i = .wire (commandBytes op arg) ∧
      ((∃ id, i = .readVar id) ↔ expectsReply op = true)) ∧
    (commandBytes op arg).length =
      match op with
      | .getvar => 2
      | .getspd => 2
      | .geterr => 2
      | .exitss => 1
      | .setspd => 3

/-- 10_state.md section 7 (93 U17): the operand bits the spec calls ignored change neither the command nor
the result. -/
def Obligations.IgnoredOperandBitsChangeNothing : Prop :=
  (∀ (x y id : Byte) (a : Option WriteAnswer) (r : Option ReadAnswer),
    run .getvar (x ++ id) a r = run .getvar (y ++ id) a r) ∧
  (∀ (op : Op) (x y : Half) (a : Option WriteAnswer) (r : Option ReadAnswer),
    op = .getspd ∨ op = .geterr ∨ op = .exitss → run op x a r = run op y a r)

/-! ### The rules of the sequencer -/

/-- 10_state.md section 6: reset is IDLE with no call outstanding; with nothing offered nothing happens, and
the first thing that can happen to an offered operation is that it is accepted. -/
def Obligations.ResetIsIdleAndWaitsForAnOffer : Prop :=
  State.reset.phase = .idle ∧ State.reset.outstanding = false ∧
  step State.reset = .next State.reset ∧
  ∀ (op : Op) (arg : Half), (tick { State.reset with requests := [⟨op.selector, arg⟩] }).phase = .write

/-- 40_transaction.md R71 ACCEPT: what is latched, that nothing is sent, and that a busy SPED takes no
request. -/
def Obligations.RequestIsAcceptedOnlyInIdle : Prop :=
  (∀ (s : State) (r : Request) (rest : List Request) (op : Op),
    s.phase = .idle → s.requests = r :: rest → Op.ofSelector r.op = some op →
    (tick s).opQ = op ∧ (tick s).argQ = r.arg ∧ (tick s).phase = .write ∧
      sameTransportSide s (tick s) ∧ (tick s).requests = rest ∧
      (tick s).rsp = s.rsp ∧ (tick s).resErr = s.resErr ∧ (tick s).resVal = s.resVal ∧
      (tick s).resReady = s.resReady ∧ (tick s).received = s.received ∧
      (tick s).refusedOffers = s.refusedOffers) ∧
  (∀ s : State, s.phase ≠ .idle → (tick s).requests = s.requests) ∧
  (∀ (s t : State), s.phase ≠ .idle → step s = .next t → t.requests = s.requests) ∧
  (∀ (s : State) (op : Op) (arg : Half), s.phase ≠ .idle → exec (opInstr op arg) s = .next s)

/-- 40_transaction.md section 2, WRITE-ISSUE and READ-ISSUE: the call is made whole, and not again while it
is outstanding; issuing changes nothing else. That TX is still as it was once the write is out is the model's
choice (log 10: the bytes reach TX at the answer), not the spec's. -/
def Obligations.CallsAreIssuedWholeAndOnce : Prop :=
  (∀ s : State, s.phase = .write → s.outstanding = false →
    tick s = { s with outstanding := true,
                      calls := s.calls ++ [.write (commandBytes s.opQ s.argQ)] }) ∧
  (∀ s : State, s.phase = .read → s.outstanding = false →
    tick s = { s with outstanding := true, calls := s.calls ++ [.read 2] }) ∧
  (∀ s : State, s.outstanding = true → s.phase = .write ∨ s.phase = .read →
    (tick s).calls = s.calls)

/-- 40_transaction.md R74 WRITE-ANSWER: every answer, for every operation. -/
def Obligations.WriteAnswerDecidesTheOperation : Prop :=
  ∀ (s : State) (a : WriteAnswer) (ta : List WriteAnswer),
    s.phase = .write → s.outstanding = true → s.txAnswers = a :: ta →
    (a = .ok (commandBytes s.opQ s.argQ).length →
      s.opQ = .getvar ∨ s.opQ = .getspd ∨ s.opQ = .geterr →
      tick s = { s with phase := .read, outstanding := false, txAnswers := ta,
                        tx := s.tx ++ commandBytes s.opQ s.argQ }) ∧
    (a = .ok (commandBytes s.opQ s.argQ).length →
      s.opQ = .exitss ∨ s.opQ = .setspd →
      tick s = { s with phase := .done, outstanding := false, txAnswers := ta, resErr := false,
                        resVal := 0x0000#16, tx := s.tx ++ commandBytes s.opQ s.argQ }) ∧
    (a ≠ .ok (commandBytes s.opQ s.argQ).length →
      (tick s).phase = .done ∧ (tick s).resErr = true ∧ (tick s).outstanding = false ∧
      (tick s).calls = s.calls ∧ (tick s).txAnswers = ta ∧ (tick s).rxAnswers = s.rxAnswers ∧
      (tick s).rx = s.rx ∧ (tick s).opQ = s.opQ ∧ (tick s).argQ = s.argQ ∧ (tick s).rsp = s.rsp ∧
      sameHostSide s (tick s))

/-- 20_memory.md R37: what is in TX after a write that did not go out whole, and that nothing further is
sent for that operation. -/
def Obligations.FailedWriteLeavesAPrefixInTx : Prop :=
  ∀ (s : State) (a : WriteAnswer) (ta : List WriteAnswer),
    s.phase = .write → s.outstanding = true → s.txAnswers = a :: ta →
    (∀ k, a = .ok k → k < (commandBytes s.opQ s.argQ).length →
      (tick s).tx = s.tx ++ (commandBytes s.opQ s.argQ).take k ∧ (tick s).resErr = true) ∧
    (a = .ioErr → ∃ k ≤ (commandBytes s.opQ s.argQ).length,
      (tick s).tx = s.tx ++ (commandBytes s.opQ s.argQ).take k ∧ (tick s).resErr = true) ∧
    (a ≠ .ok (commandBytes s.opQ s.argQ).length →
      (tick s).phase = .done ∧
      ∀ t, step (tick s) = .next t → t.tx = (tick s).tx ∧ t.calls = (tick s).calls)

/-- 40_transaction.md R76 READ-ANSWER: every answer. -/
def Obligations.ReadAnswerDecidesTheResult : Prop :=
  ∀ (s : State) (r : ReadAnswer) (ra : List ReadAnswer),
    s.phase = .read → s.outstanding = true → s.rxAnswers = r :: ra →
    (∀ b0 b1, r = .ok 2 [b0, b1] →
      tick s = { s with phase := .done, outstanding := false, rxAnswers := ra, rsp := (b0, b1),
                        resErr := false, resVal := BitVec.ofNat 16 (b0.toNat + 256 * b1.toNat),
                        rx := s.rx.drop 2 }) ∧
    ((∀ b0 b1, r ≠ .ok 2 [b0, b1]) →
      (tick s).phase = .done ∧ (tick s).resErr = true ∧ (tick s).outstanding = false ∧
      (tick s).calls = s.calls ∧ (tick s).rxAnswers = ra ∧ (tick s).txAnswers = s.txAnswers ∧
      (tick s).tx = s.tx ∧ (tick s).opQ = s.opQ ∧ (tick s).argQ = s.argQ ∧
      sameHostSide s (tick s) ∧ ∀ k data, r = .ok k data → (tick s).rx = s.rx.drop k)

/-- 20_memory.md section 3: a read takes exactly its count from the head of RX, and 0 to 2 bytes if it
fails with an I/O error; a write takes none. -/
def Obligations.ReadsConsumeTheHeadOfRx : Prop :=
  (∀ (s : State) (k : Nat) (data : List Byte) (ra : List ReadAnswer),
    s.phase = .read → s.outstanding = true → s.rxAnswers = .ok k data :: ra →
    (tick s).rx = s.rx.drop k) ∧
  (∀ (s : State) (ra : List ReadAnswer),
    s.phase = .read → s.outstanding = true → s.rxAnswers = .ioErr :: ra →
    ∃ k ≤ 2, (tick s).rx = s.rx.drop k) ∧
  (∀ s : State, s.phase ≠ .read → (tick s).rx = s.rx)

/-- 40_transaction.md section 2, NO-ANSWER: without an answer SPED stays where it is for ever, whatever the host
and the device do, and takes nothing from the host. The spec says this of the phase and the result. That a stuck
state answers a next state, itself, is the model's choice (log 4), and so is that TX stays as it was while a
write is out (log 10). -/
def Obligations.UnansweredCallIsStuck : Prop :=
  ∀ s : State, Unanswered s →
    (∀ n, ticks n s = s) ∧ step s = .next s ∧
    (∀ e t, e.isHostOrDevice = true → applyEvent e s = .next t →
      Unanswered t ∧ t.phase = s.phase ∧ t.received = s.received ∧ t.calls = s.calls)

/-- 40_transaction.md R78 DELIVER: what the host gets, that SPED is idle after it, and that it waits, with no
call, while the result is not taken. -/
def Obligations.ResultIsHeldUntilTaken : Prop :=
  (∀ s : State, s.phase = .done → s.resReady = true → ∃ t, step s = .next t ∧ tick s = t ∧
    t.received = s.received ++ [⟨s.resErr, s.resVal⟩] ∧ t.phase = .idle ∧
    sameTransportSide s t ∧ t.requests = s.requests ∧ t.resReady = s.resReady ∧
    t.refusedOffers = s.refusedOffers) ∧
  (∀ s : State, s.phase = .done → s.resReady = false → step s = .next s ∧ tick s = s)

/-- 30_encoding.md R62: selectors 5, 6 and 7 are refused: not accepted, SPED stays in IDLE, no call. Where
the refused offer goes is the model's choice (log 8) and is not claimed. -/
def Obligations.ReservedSelectorIsRefused : Prop :=
  ∀ (s : State) (r : Request) (rest : List Request),
    s.phase = .idle → s.requests = r :: rest → r.op = 5#3 ∨ r.op = 6#3 ∨ r.op = 7#3 →
    decode (.request r) = .error (.reservedSelector r.op) ∧
    ∃ t, step s = .next t ∧ tick s = t ∧ t.phase = .idle ∧ sameRegisters s t ∧
      sameTransportSide s t ∧ t.received = s.received

/-- 60_exceptions.md R115, entry of the one exception: the same for every cause, nothing saved, no further
call, and no signed reading of it. -/
def Obligations.SerialErrorEntry : Prop :=
  ∀ (cause cause' : Cause) (s : State),
    (raiseSerialError cause s).resErr = true ∧ (raiseSerialError cause s).phase = .done ∧
    (raiseSerialError cause s).outstanding = false ∧
    raiseSerialError cause s = raiseSerialError cause' s ∧
    sameTransportSide s (raiseSerialError cause s) ∧ sameHostSide s (raiseSerialError cause s) ∧
    (raiseSerialError cause s).opQ = s.opQ ∧ (raiseSerialError cause s).argQ = s.argQ ∧
    (raiseSerialError cause s).rsp = s.rsp ∧
    (∃ t, step (raiseSerialError cause s) = .next t ∧ t.calls = s.calls) ∧
    ∀ v, portResult .getspd true v = .serialError

/-- 70_reset_and_hazards.md section 1: reset reaches no stream, no call, no answer and no offer, and is refused
during an operation (log 16). -/
def Obligations.ResetReachesNothingOutside : Prop :=
  (∀ s : State, s.phase = .idle → ∃ t, applyEvent .reset s = .next t ∧ t.phase = .idle ∧
    t.outstanding = false ∧ sameTransportSide s t ∧ sameHostSide s t) ∧
  (∀ s : State, s.phase = .write ∨ s.phase = .read ∨ s.phase = .done →
    applyEvent .reset s = .refused .resetDuringOperation)

/-! ### Steps -/

/-- What `step` puts around `exec`: in IDLE the offer at the head leaves the port and runs; in WRITE and READ
the command in hand runs; with no offer, or a result in DONE, the host's move (log 5, 6). -/
def Obligations.StepRunsTheDecodedInstruction : Prop :=
  (∀ (s : State) (r : Request) (rest : List Request) (i : Instr),
    s.phase = .idle → s.requests = r :: rest → decode (.request r) = .ok i →
    step s = exec i { s with requests := rest }) ∧
  (∀ (s : State) (i : Instr), s.phase = .write ∨ s.phase = .read →
    decode (.wire (commandBytes s.opQ s.argQ)) = .ok i → step s = exec i s) ∧
  (∀ s : State, s.phase = .idle → s.requests = [] → step s = .next s) ∧
  (∀ s : State, s.phase = .done → step s = .next (deliver s))

/-- Every word of the opcode table that decodes is what the next step runs once it is placed, in any state;
nothing of the host's results, the streams or the answers is touched by placing it (log 6). -/
def Obligations.PlacedWordIsRunNext : Prop :=
  ∀ (s : State) (nbits w : Nat) (i : Instr), decodeTableWord nbits w = some i →
    ∃ s', step (s.withFetchWord nbits w) = exec i s' ∧ sameTransportSide s s' ∧ sameHostSide s s' ∧
      (i.isWire = false → s'.phase = .idle) ∧
      (i.isWire = true → s'.phase = .write ∧ s'.outstanding = false ∧
        encode i = .wire (commandBytes s'.opQ s'.argQ))

/-- No state of the MODEL ends in a fault or a refusal. That operands raise nothing and a transport failure is a
result is the spec's (60_exceptions.md section 1). The rest is the model's choice: an unanswered call, which the
spec calls stuck, and any other wait answer the state itself (log 4), a refused offer is a next state (log 8),
and a wire command outside its phases changes nothing (log 7). -/
def Obligations.StepAlwaysAnswersNext : Prop :=
  (∀ s : State, ∃ t, step s = .next t) ∧ (∀ (i : Instr) (s : State), ∃ t, exec i s = .next t)

/-- A step is a number of rules of the sequencer, at most five, in every state (log 5). -/
def Obligations.StepIsAtMostFiveRules : Prop :=
  ∀ s : State, ∃ n ≤ 5, step s = .next (ticks n s)

/-- 40_transaction.md R80: from IDLE with an offered operation, the sequencer ends with exactly the result and
the calls of `Run` for the same answers, and hands that result to the host; if an answer never comes, neither
form has a result; and between ACCEPT and DELIVER no rule takes an input from the host. -/
def Obligations.SequencerAgreesWithRun : Prop :=
  (∀ (u : State) (offers : List Request) (b : Bool), u.phase = .write ∨ u.phase = .read →
    tick { u with requests := offers, resReady := b } =
      { tick u with requests := offers, resReady := b }) ∧
  ∀ (s : State) (r : Request) (rest : List Request) (op : Op),
    s.phase = .idle → s.requests = r :: rest → Op.ofSelector r.op = some op →
    (∀ res, (run op r.arg s.txAnswers.head? s.rxAnswers.head?).1 = some res →
      ∃ n, (ticks n s).phase = .done ∧
        MadeCalls s (ticks n s) (run op r.arg s.txAnswers.head? s.rxAnswers.head?).2 ∧
        portResult op (ticks n s).resErr (ticks n s).resVal = res ∧
        (∀ m < n, (ticks m s).received = s.received) ∧
        (s.resReady = true → ∃ d : Delivery, (ticks (n + 1) s).received = s.received ++ [d] ∧
          portResult op d.err d.val = res ∧ (ticks (n + 1) s).phase = .idle)) ∧
    ((run op r.arg s.txAnswers.head? s.rxAnswers.head?).1 = none →
      (∀ n, (ticks n s).received = s.received ∧ (ticks n s).phase ≠ .done) ∧
      ∃ n, Unanswered (ticks n s) ∧
        MadeCalls s (ticks n s) (run op r.arg s.txAnswers.head? s.rxAnswers.head?).2)

/-- The meaning of a host operation is `Run`: from IDLE it answers a next state with exactly `Run`'s calls,
and in DONE with exactly `Run`'s result, or waiting for an answer exactly when `Run` does not return. -/
def Obligations.HostOperationIsRun : Prop :=
  ∀ (s : State) (op : Op) (arg : Half), s.phase = .idle →
    ∃ t, exec (opInstr op arg) s = .next t ∧
      MadeCalls s t (run op arg s.txAnswers.head? s.rxAnswers.head?).2 ∧
      (∀ res, (run op arg s.txAnswers.head? s.rxAnswers.head?).1 = some res →
        t.phase = .done ∧ portResult op t.resErr t.resVal = res) ∧
      ((run op arg s.txAnswers.head? s.rxAnswers.head?).1 = none → Unanswered t)

/-! ### Instructions: completion, result and frame -/

/-- GETVAR (41_variable_read.md section 1): both calls answered in full. -/
def Obligations.GetvarReturnsTheReply : Prop :=
  ∀ (s : State) (ignored id b0 b1 : Byte) (ta : List WriteAnswer) (ra : List ReadAnswer),
    s.phase = .idle → s.txAnswers = .ok 2 :: ta → s.rxAnswers = .ok 2 [b0, b1] :: ra →
    exec (.getvar ignored id) s = .next
      { s with phase := .done, opQ := .getvar, argQ := ignored ++ id, rsp := (b0, b1),
               resErr := false, resVal := BitVec.ofNat 16 (b0.toNat + 256 * b1.toNat),
               outstanding := false, tx := s.tx ++ [0xA1#8, id], rx := s.rx.drop 2,
               calls := s.calls ++ [.write [0xA1#8, id], .read 2], txAnswers := ta,
               rxAnswers := ra } ∧
    portResult .getvar false (BitVec.ofNat 16 (b0.toNat + 256 * b1.toNat)) =
      .ok (b0.toNat + 256 * b1.toNat)

/-- GETSPD (41_variable_read.md section 1): both calls answered in full; the result is the signed reading. -/
def Obligations.GetspdReturnsTheSignedReply : Prop :=
  ∀ (s : State) (ignored : Half) (b0 b1 : Byte) (ta : List WriteAnswer) (ra : List ReadAnswer),
    s.phase = .idle → s.txAnswers = .ok 2 :: ta → s.rxAnswers = .ok 2 [b0, b1] :: ra →
    exec (.getspd ignored) s = .next
      { s with phase := .done, opQ := .getspd, argQ := ignored, rsp := (b0, b1),
               resErr := false, resVal := BitVec.ofNat 16 (b0.toNat + 256 * b1.toNat),
               outstanding := false, tx := s.tx ++ [0xA1#8, 0x14#8], rx := s.rx.drop 2,
               calls := s.calls ++ [.write [0xA1#8, 0x14#8], .read 2], txAnswers := ta,
               rxAnswers := ra } ∧
    portResult .getspd false (BitVec.ofNat 16 (b0.toNat + 256 * b1.toNat)) =
      .ok (if b0.toNat + 256 * b1.toNat ≤ 32767 then ((b0.toNat + 256 * b1.toNat : Nat) : Int)
        else ((b0.toNat + 256 * b1.toNat : Nat) : Int) - 65536)

/-- GETERR (41_variable_read.md section 1): both calls answered in full; no bit is interpreted. -/
def Obligations.GeterrReturnsTheReply : Prop :=
  ∀ (s : State) (ignored : Half) (b0 b1 : Byte) (ta : List WriteAnswer) (ra : List ReadAnswer),
    s.phase = .idle → s.txAnswers = .ok 2 :: ta → s.rxAnswers = .ok 2 [b0, b1] :: ra →
    exec (.geterr ignored) s = .next
      { s with phase := .done, opQ := .geterr, argQ := ignored, rsp := (b0, b1),
               resErr := false, resVal := BitVec.ofNat 16 (b0.toNat + 256 * b1.toNat),
               outstanding := false, tx := s.tx ++ [0xA1#8, 0x00#8], rx := s.rx.drop 2,
               calls := s.calls ++ [.write [0xA1#8, 0x00#8], .read 2], txAnswers := ta,
               rxAnswers := ra } ∧
    portResult .geterr false (BitVec.ofNat 16 (b0.toNat + 256 * b1.toNat)) =
      .ok (b0.toNat + 256 * b1.toNat)

/-- EXITSS (42_exit_safe_start.md): the byte was taken; no read, RX untouched. -/
def Obligations.ExitssSucceedsWhenItsByteIsSent : Prop :=
  ∀ (s : State) (ignored : Half) (ta : List WriteAnswer),
    s.phase = .idle → s.txAnswers = .ok 1 :: ta →
    exec (.exitss ignored) s = .next
      { s with phase := .done, opQ := .exitss, argQ := ignored, resErr := false,
               resVal := 0x0000#16, outstanding := false, tx := s.tx ++ [0x83#8],
               calls := s.calls ++ [.write [0x83#8]], txAnswers := ta } ∧
    portResult .exitss false 0x0000#16 = .ok 0

/-- SETSPD (43_set_speed.md section 1): the three bytes were taken, for every 16-bit operand. -/
def Obligations.SetspdSucceedsWhenItsBytesAreSent : Prop :=
  ∀ (s : State) (speed : Half) (ta : List WriteAnswer),
    s.phase = .idle → s.txAnswers = .ok 3 :: ta →
    exec (.setspd speed) s = .next
      { s with phase := .done, opQ := .setspd, argQ := speed, resErr := false,
               resVal := 0x0000#16, outstanding := false,
               tx := s.tx ++ [if s16 speed < 0 then 0x86#8 else 0x85#8,
                 BitVec.ofNat 8 ((s16 speed).natAbs &&& 0x1F),
                 BitVec.ofNat 8 (((s16 speed).natAbs >>> 5) &&& 0x7F)],
               calls := s.calls ++ [.write [if s16 speed < 0 then 0x86#8 else 0x85#8,
                 BitVec.ofNat 8 ((s16 speed).natAbs &&& 0x1F),
                 BitVec.ofNat 8 (((s16 speed).natAbs >>> 5) &&& 0x7F)]],
               txAnswers := ta } ∧
    portResult .setspd false 0x0000#16 = .ok 0

/-- READ_VAR (log 7): in WRITE, whether or not its call is already out, and in READ likewise. -/
def Obligations.ReadVarCommandCompletes : Prop :=
  (∀ (s : State) (id b0 b1 : Byte) (ta : List WriteAnswer) (ra : List ReadAnswer),
    s.phase = .write → s.txAnswers = .ok 2 :: ta → s.rxAnswers = .ok 2 [b0, b1] :: ra →
    exec (.readVar id) s = .next
      { s with phase := .done, rsp := (b0, b1), resErr := false,
               resVal := BitVec.ofNat 16 (b0.toNat + 256 * b1.toNat), outstanding := false,
               tx := s.tx ++ [0xA1#8, id], rx := s.rx.drop 2,
               calls := s.calls ++
                 (if s.outstanding then [.read 2] else [.write [0xA1#8, id], .read 2]),
               txAnswers := ta, rxAnswers := ra }) ∧
  (∀ (s : State) (id b0 b1 : Byte) (ra : List ReadAnswer),
    s.phase = .read → s.rxAnswers = .ok 2 [b0, b1] :: ra →
    exec (.readVar id) s = .next
      { s with phase := .done, rsp := (b0, b1), resErr := false,
               resVal := BitVec.ofNat 16 (b0.toNat + 256 * b1.toNat), outstanding := false,
               rx := s.rx.drop 2,
               calls := s.calls ++ (if s.outstanding then [] else [.read 2]), rxAnswers := ra })

/-- EXIT_SAFE_START (log 7): in WRITE, whether or not its call is already out. -/
def Obligations.ExitSafeStartCommandCompletes : Prop :=
  ∀ (s : State) (ta : List WriteAnswer), s.phase = .write → s.txAnswers = .ok 1 :: ta →
    exec .exitSafeStart s = .next
      { s with phase := .done, resErr := false, resVal := 0x0000#16, outstanding := false,
               tx := s.tx ++ [0x83#8],
               calls := s.calls ++ (if s.outstanding then [] else [.write [0x83#8]]),
               txAnswers := ta }

/-- SET_SPEED_FWD and SET_SPEED_REV (log 7): in WRITE, whether or not the call is already out, for every
magnitude. -/
def Obligations.SetSpeedCommandsComplete : Prop :=
  ∀ (s : State) (m : Nat) (ta : List WriteAnswer), s.phase = .write → s.txAnswers = .ok 3 :: ta →
    exec (.setSpeedFwd m) s = .next
      { s with phase := .done, resErr := false, resVal := 0x0000#16, outstanding := false,
               tx := s.tx ++ [0x85#8, BitVec.ofNat 8 (m &&& 0x1F), BitVec.ofNat 8 ((m >>> 5) &&& 0x7F)],
               calls := s.calls ++ (if s.outstanding then [] else
                 [.write [0x85#8, BitVec.ofNat 8 (m &&& 0x1F), BitVec.ofNat 8 ((m >>> 5) &&& 0x7F)]]),
               txAnswers := ta } ∧
    exec (.setSpeedRev m) s = .next
      { s with phase := .done, resErr := false, resVal := 0x0000#16, outstanding := false,
               tx := s.tx ++ [0x86#8, BitVec.ofNat 8 (m &&& 0x1F), BitVec.ofNat 8 ((m >>> 5) &&& 0x7F)],
               calls := s.calls ++ (if s.outstanding then [] else
                 [.write [0x86#8, BitVec.ofNat 8 (m &&& 0x1F), BitVec.ofNat 8 ((m >>> 5) &&& 0x7F)]]),
               txAnswers := ta }

/-- 40_transaction.md section 1, 60_exceptions.md sections 1 and 3: any answer to the write but the exact
count ends each of the five operations in the error, with no read, and leaves everything else alone. -/
def Obligations.FailedWriteEndsTheOperation : Prop :=
  ∀ (s : State) (op : Op) (arg : Half) (a : WriteAnswer) (ta : List WriteAnswer),
    s.phase = .idle → s.txAnswers = a :: ta → a ≠ .ok (commandBytes op arg).length →
    ∃ t, exec (opInstr op arg) s = .next t ∧ t.phase = .done ∧ t.resErr = true ∧
      t.outstanding = false ∧ t.opQ = op ∧ t.argQ = arg ∧ t.rsp = s.rsp ∧
      MadeCalls s t [.write (commandBytes op arg)] ∧
      (∃ k ≤ (commandBytes op arg).length, t.tx = s.tx ++ (commandBytes op arg).take k) ∧
      t.txAnswers = ta ∧ t.rxAnswers = s.rxAnswers ∧ t.rx = s.rx ∧ sameHostSide s t

/-- 40_transaction.md section 1, 60_exceptions.md section 1: any answer to the read but two bytes ends the
three reads in the error, after exactly one read, with the whole command in TX. -/
def Obligations.FailedReadEndsTheOperation : Prop :=
  ∀ (s : State) (op : Op) (arg : Half) (r : ReadAnswer) (ta : List WriteAnswer)
    (ra : List ReadAnswer),
    s.phase = .idle → expectsReply op = true → s.txAnswers = .ok 2 :: ta → s.rxAnswers = r :: ra →
    (∀ b0 b1, r ≠ .ok 2 [b0, b1]) →
    ∃ t, exec (opInstr op arg) s = .next t ∧ t.phase = .done ∧ t.resErr = true ∧
      t.outstanding = false ∧ t.opQ = op ∧ t.argQ = arg ∧
      MadeCalls s t [.write (commandBytes op arg), .read 2] ∧
      t.tx = s.tx ++ commandBytes op arg ∧
      (∀ k data, r = .ok k data → t.rx = s.rx.drop k) ∧
      (r = .ioErr → ∃ k ≤ 2, t.rx = s.rx.drop k) ∧
      t.txAnswers = ta ∧ t.rxAnswers = ra ∧ sameHostSide s t

/-- The same for the wire commands: in WRITE any answer but the exact count ends the operation in hand in the
error, with no read; and READ_VAR ends so on any reply but two bytes, begun in WRITE or in READ. -/
def Obligations.FailedAnswerEndsTheCommand : Prop :=
  (∀ (s : State) (i : Instr) (a : WriteAnswer) (ta : List WriteAnswer),
    i.isWire = true → s.phase = .write → s.txAnswers = a :: ta →
    a ≠ .ok (encode i).bytes.length →
    ∃ t, exec i s = .next t ∧ t.phase = .done ∧ t.resErr = true ∧ t.outstanding = false ∧
      t.opQ = s.opQ ∧ t.argQ = s.argQ ∧ t.rsp = s.rsp ∧
      MadeCalls s t (if s.outstanding then [] else [.write (encode i).bytes]) ∧
      (∃ k ≤ (encode i).bytes.length, t.tx = s.tx ++ (encode i).bytes.take k) ∧
      t.txAnswers = ta ∧ t.rxAnswers = s.rxAnswers ∧ t.rx = s.rx ∧ sameHostSide s t) ∧
  (∀ (s : State) (id : Byte) (r : ReadAnswer) (ta : List WriteAnswer) (ra : List ReadAnswer),
    s.rxAnswers = r :: ra → (∀ b0 b1, r ≠ .ok 2 [b0, b1]) →
    s.phase = .read ∨ (s.phase = .write ∧ s.txAnswers = .ok 2 :: ta) →
    ∃ t, exec (.readVar id) s = .next t ∧ t.phase = .done ∧ t.resErr = true ∧
      t.outstanding = false ∧ t.opQ = s.opQ ∧ t.argQ = s.argQ ∧
      (s.phase = .read → MadeCalls s t (if s.outstanding then [] else [.read 2]) ∧ t.tx = s.tx ∧
        t.txAnswers = s.txAnswers) ∧
      (s.phase = .write →
        MadeCalls s t (if s.outstanding then [.read 2] else [.write [0xA1#8, id], .read 2]) ∧
        t.tx = s.tx ++ [0xA1#8, id] ∧ t.txAnswers = ta) ∧
      (∀ k data, r = .ok k data → t.rx = s.rx.drop k) ∧
      (r = .ioErr → ∃ k ≤ 2, t.rx = s.rx.drop k) ∧
      t.rxAnswers = ra ∧ sameHostSide s t)

/-- The wire commands where they do not complete (log 7): without an answer the call is made and waits
(40_transaction.md section 2), and outside the phases of the transport half nothing happens. That the wait is a
next state is log 4's choice, and that TX is still as it was while the write is out is log 10's, not the spec's. -/
def Obligations.WireCommandsWaitOrStandStill : Prop :=
  (∀ (s : State) (i : Instr), i.isWire = true → s.phase = .write → s.txAnswers = [] →
    exec i s = .next { s with outstanding := true,
                              calls := s.calls ++
                                (if s.outstanding then [] else [.write (encode i).bytes]) }) ∧
  (∀ (s : State) (id : Byte), s.phase = .read → s.rxAnswers = [] →
    exec (.readVar id) s = .next { s with outstanding := true,
                                          calls := s.calls ++
                                            (if s.outstanding then [] else [.read 2]) }) ∧
  (∀ (s : State) (i : Instr), i.isWire = true → s.phase = .idle ∨ s.phase = .done →
    exec i s = .next s) ∧
  (∀ (s : State) (i : Instr), i.isWire = true → s.phase = .read → (∀ id, i ≠ .readVar id) →
    exec i s = .next s)

/-- 30_encoding.md R66: GETERR is GETVAR 0 in everything but the latched request; GETSPD makes GETVAR 20's
calls and posts the same bits, read signed; the sign of SETSPD's operand selects the opcode. -/
def Obligations.GeterrAndGetspdSpecialiseGetvar : Prop :=
  (∀ (s : State) (x : Half) (y : Byte), s.phase = .idle → ∃ t u,
    exec (.geterr x) s = .next t ∧ exec (.getvar y 0#8) s = .next u ∧
    t = { u with opQ := .geterr, argQ := x } ∧
    portResult .geterr t.resErr t.resVal = portResult .getvar u.resErr u.resVal) ∧
  (∀ (s : State) (x : Half) (y : Byte), s.phase = .idle → ∃ t u,
    exec (.getspd x) s = .next t ∧ exec (.getvar y 20#8) s = .next u ∧
    t = { u with opQ := .getspd, argQ := x } ∧
    (∀ v, portResult .getvar false v = .ok v.toNat ∧ portResult .getspd false v = .ok (s16 v))) ∧
  (∀ x : Half, (commandBytes .setspd x).head? = some (if s16 x < 0 then 0x86#8 else 0x85#8))

/-- 40_transaction.md R79, call counts of one operation. -/
def Obligations.CallCountsPerOperation : Prop :=
  ∀ (s t : State) (op : Op) (arg : Half), s.phase = .idle → exec (opInstr op arg) s = .next t →
    (MadeCalls s t [.write (commandBytes op arg)] ∨
      MadeCalls s t [.write (commandBytes op arg), .read 2]) ∧
    (MadeCalls s t [.write (commandBytes op arg), .read 2] ↔
      (op = .getvar ∨ op = .getspd ∨ op = .geterr) ∧
        s.txAnswers.head? = some (.ok (commandBytes op arg).length))

/-- 10_state.md section 3, 60_exceptions.md section 1: an operation that has ended has `res_err` set exactly
when the transport failed it; operands decide nothing. -/
def Obligations.ErrorExactlyOnTransportFailure : Prop :=
  ∀ (s t : State) (op : Op) (arg : Half), s.phase = .idle → exec (opInstr op arg) s = .next t →
    t.phase = .done →
    (t.resErr = false ↔ s.txAnswers.head? = some (.ok (commandBytes op arg).length) ∧
      (expectsReply op = true → ∃ b0 b1, s.rxAnswers.head? = some (.ok 2 [b0, b1])))

/-- 10_state.md R10: two operations alike in operand and in the transport's answers end alike, whatever ran
before them, in any two states. -/
def Obligations.OutcomeIgnoresHistory : Prop :=
  ∀ (s s' t t' : State) (i : Instr), i.isWire = false → s.phase = .idle → s'.phase = .idle →
    s.txAnswers.head? = s'.txAnswers.head? → s.rxAnswers.head? = s'.rxAnswers.head? →
    exec i s = .next t → exec i s' = .next t' →
    t.phase = t'.phase ∧ t.outstanding = t'.outstanding ∧ t.opQ = t'.opQ ∧ t.argQ = t'.argQ ∧
    (∃ cs, MadeCalls s t cs ∧ MadeCalls s' t' cs) ∧
    (t.phase = .done → t.resErr = t'.resErr ∧ (t.resErr = false → t.resVal = t'.resVal))

/-- 20_memory.md section 6: once an operation is latched, what the host offers does not alter it. -/
def Obligations.LatchedOperationIgnoresTheRequestPort : Prop :=
  ∀ (s t : State) (offers : List Request), s.phase ≠ .idle → step s = .next t →
    step { s with requests := offers } = .next { t with requests := offers }

/-- 00_scope.md section 4, 60_exceptions.md section 1: in the integer view an error differs from every value
any operation can return. -/
def Obligations.SentinelDiffersFromEveryResult : Prop :=
  (Config.sentinel < -32768 ∨ 65535 < Config.sentinel) ∧
  ∀ (op : Op) (v w : Half), intView (portResult op true w) ≠ intView (portResult op false v)

/-- 10_state.md section 7: the outputs of the two interfaces. `tx_valid` and `rx_valid` are the model's
reading of "presents" (log 18). What `tx_len` and `tx_data` carry in a state where `tx_valid` is 0 is open in
the spec and the model's choice (log 23). -/
def Obligations.PortsShowTheStateOfTheOperation : Prop :=
  (∀ s : State, (reqReady s = true ↔ s.phase = .idle) ∧ (resValid s = true ↔ s.phase = .done)) ∧
  (∀ s : State, SequencerInv s → (txValid s || rxValid s) = s.outstanding ∧
    (txValid s && rxValid s) = false) ∧
  (∀ s : State, (txLen s).toNat = (command s).length ∧
    ∀ k < (command s).length, some ((txData s).extractLsb' (8 * k) 8) = (command s)[k]?) ∧
  (∀ data : Half, judgeRead (.ofPort false 2#2 data) =
    .ok (data.extractLsb' 0 8, data.extractLsb' 8 8))

/-- 20_memory.md sections 2 and 6: over a reliable transport GETVAR returns the two bytes at the head of RX,
with no check that they answer this command; a byte left there from before is decoded as the low byte. -/
def Obligations.ReplyIsTheHeadOfRxUnchecked : Prop :=
  ∀ (s : State) (ignored id x y : Byte) (data rest : List Byte) (ta : List WriteAnswer)
    (ra : List ReadAnswer),
    s.phase = .idle → s.txAnswers = .ok 2 :: ta → s.rxAnswers = .ok 2 data :: ra →
    FaithfulRead s (.ok 2 data) → s.rx = x :: y :: rest →
    ∃ t, exec (.getvar ignored id) s = .next t ∧ t.phase = .done ∧ t.rx = rest ∧
      portResult .getvar t.resErr t.resVal = .ok (x.toNat + 256 * y.toNat)

/-- 70_reset_and_hazards.md sections 2 and 3: where TX holds whole commands, an operation whose write is
answered in full leaves it holding one command more, the operation's own. -/
def Obligations.FullWritesKeepTxWhole : Prop :=
  ∀ (s : State) (op : Op) (arg : Half) (is : List Instr) (ta : List WriteAnswer),
    s.phase = .idle → TxHoldsCommands s is →
    s.txAnswers = .ok (commandBytes op arg).length :: ta →
    ∃ t i, exec (opInstr op arg) s = .next t ∧ encode i = .wire (commandBytes op arg) ∧
      TxHoldsCommands t (is ++ [i])

/-- 30_encoding.md section 7: a line of the spec's syntax is a request that decodes to the operation it
names, with its operand; and lines out of range are none. That the ignored operand of a GETSPD, GETERR or EXITSS
line is 0 is the model's choice (log 24), not the spec's. -/
def Obligations.SyntaxNamesTheOperation : Prop :=
  (∀ id : Byte, ∃ r, assemble "GETVAR" (some (id.toNat : Int)) = some r ∧
    decode (.request r) = .ok (.getvar 0#8 id)) ∧
  (∀ v : Int, -32768 ≤ v → v ≤ 32767 → ∃ r speed, assemble "SETSPD" (some v) = some r ∧
    decode (.request r) = .ok (.setspd speed) ∧ s16 speed = v) ∧
  (∃ r, assemble "GETSPD" none = some r ∧ decode (.request r) = .ok (.getspd 0#16)) ∧
  (∃ r, assemble "GETERR" none = some r ∧ decode (.request r) = .ok (.geterr 0#16)) ∧
  (∃ r, assemble "EXITSS" none = some r ∧ decode (.request r) = .ok (.exitss 0#16)) ∧
  (∀ v : Int, v < 0 ∨ 255 < v → assemble "GETVAR" (some v) = none) ∧
  (∀ v : Int, v < -32768 ∨ 32767 < v → assemble "SETSPD" (some v) = none)

/-! ### Invariants -/

/-- The invariant holds after reset (the registers' reset values are log 1's, the streams' log 2's). -/
def Obligations.ResetMeetsTheInvariant : Prop := SequencerInv State.reset

/-- Every step keeps the invariant, from every state that meets it. -/
def Obligations.StepKeepsTheInvariant : Prop :=
  ∀ s t : State, SequencerInv s → step s = .next t → SequencerInv t

/-- Every rule of the sequencer keeps the invariant, from every state that meets it. -/
def Obligations.RuleKeepsTheInvariant : Prop := ∀ s : State, SequencerInv s → SequencerInv (tick s)

/-- Every move of the environment keeps the invariant, from every state that meets it. -/
def Obligations.EventKeepsTheInvariant : Prop :=
  ∀ (s t : State) (e : Event), SequencerInv s → applyEvent e s = .next t → SequencerInv t
end

