-- ==== Sys2Proof/Laws/Codec.lean ====
section
/-! SUPPORT. The lemmas of the decoder, the encoder and the operand arithmetic (spec/30_encoding.md,
spec/41_variable_read.md section 2, spec/43_set_speed.md section 2). -/

namespace Sys2Proof

@[simp] theorem lowField_toNat (m : Nat) : (lowField m).toNat = m % 32 := by
  have h : m &&& 31 = m % 32 := Nat.and_two_pow_sub_one_eq_mod m 5
  simp only [lowField, BitVec.toNat_ofNat, h]
  omega

@[simp] theorem highField_toNat (m : Nat) : (highField m).toNat = m / 32 % 128 := by
  have h : m / 32 &&& 127 = m / 32 % 128 := Nat.and_two_pow_sub_one_eq_mod _ 7
  have h' : m >>> 5 = m / 32 := Nat.shiftRight_eq_div_pow m 5
  simp only [highField, BitVec.toNat_ofNat, h', h]
  omega

theorem lowField_mod (m : Nat) : lowField (m % 4096) = lowField m := by
  apply BitVec.eq_of_toNat_eq
  simp only [lowField_toNat]
  omega

theorem highField_mod (m : Nat) : highField (m % 4096) = highField m := by
  apply BitVec.eq_of_toNat_eq
  simp only [highField_toNat]
  omega

theorem loByte_toNat (v : Half) : (loByte v).toNat = v.toNat % 256 := by
  simp [loByte, BitVec.extractLsb'_toNat]

theorem hiByte_toNat (v : Half) : (hiByte v).toNat = v.toNat / 256 := by
  have := v.isLt
  simp only [hiByte, BitVec.extractLsb'_toNat, Nat.shiftRight_eq_div_pow]
  omega

theorem append_toNat (x y : Byte) : (x ++ y : Half).toNat = x.toNat * 256 + y.toNat := by
  have := y.isLt
  rw [BitVec.toNat_append, ← Nat.shiftLeft_add_eq_or_of_lt this, Nat.shiftLeft_eq]

@[simp] theorem hiByte_append_loByte (v : Half) : hiByte v ++ loByte v = v := by
  apply BitVec.eq_of_toNat_eq
  rw [append_toNat, hiByte_toNat, loByte_toNat]
  omega

@[simp] theorem loByte_append (x y : Byte) : loByte (x ++ y) = y := by
  apply BitVec.eq_of_toNat_eq
  have := y.isLt
  rw [loByte_toNat, append_toNat]
  omega

@[simp] theorem hiByte_append (x y : Byte) : hiByte (x ++ y) = x := by
  apply BitVec.eq_of_toNat_eq
  have := y.isLt
  rw [hiByte_toNat, append_toNat]
  omega

@[simp] theorem ofSelector_selector (op : Op) : Op.ofSelector op.selector = some op := by
  cases op <;> rfl

/-- The selector table read backwards: an operation is found under its own code only. -/
theorem selector_of_ofSelector {c : BitVec 3} {op : Op} (h : Op.ofSelector c = some op) :
    op.selector = c := by
  revert h
  revert c op
  decide

theorem ofSelector_reserved {c : BitVec 3} (h : c = 5#3 ∨ c = 6#3 ∨ c = 7#3) :
    Op.ofSelector c = none := by
  rcases h with rfl | rfl | rfl <;> rfl

namespace Machine

theorem s16_eq_toInt (u : Half) : s16 u = u.toInt := by
  have := u.isLt
  unfold s16
  rw [BitVec.toInt_eq_toNat_cond]
  split <;> split <;> omega

theorem u16_eq_append (b0 b1 : Byte) : u16 b0 b1 = b1 ++ b0 := by
  apply BitVec.eq_of_toNat_eq
  have := b0.isLt
  have := b1.isLt
  rw [append_toNat]
  simp only [u16, BitVec.toNat_ofNat]
  omega

theorem magnitude_le (arg : Half) : magnitude arg ≤ 32768 := by
  have := arg.isLt
  unfold magnitude s16
  split <;> omega

end Machine

end Sys2Proof
end

