-- ==== Sys2Proof/Laws/State.lean ====
section
/-! SUPPORT. One lemma per field per record update of State (Machine/Ops.lean), true by rfl. -/

namespace Sys2Proof.Machine

/-! ### State.latch -/

@[simp] theorem State.latch_phase (op : Op) (arg : Half) (s : State) : (s.latch op arg).phase = .write := rfl
@[simp] theorem State.latch_opQ (op : Op) (arg : Half) (s : State) : (s.latch op arg).opQ = op := rfl
@[simp] theorem State.latch_argQ (op : Op) (arg : Half) (s : State) : (s.latch op arg).argQ = arg := rfl
@[simp] theorem State.latch_rsp (op : Op) (arg : Half) (s : State) : (s.latch op arg).rsp = s.rsp := rfl
@[simp] theorem State.latch_resErr (op : Op) (arg : Half) (s : State) : (s.latch op arg).resErr = s.resErr := rfl
@[simp] theorem State.latch_resVal (op : Op) (arg : Half) (s : State) : (s.latch op arg).resVal = s.resVal := rfl
@[simp] theorem State.latch_outstanding (op : Op) (arg : Half) (s : State) : (s.latch op arg).outstanding = false := rfl
@[simp] theorem State.latch_tx (op : Op) (arg : Half) (s : State) : (s.latch op arg).tx = s.tx := rfl
@[simp] theorem State.latch_rx (op : Op) (arg : Half) (s : State) : (s.latch op arg).rx = s.rx := rfl
@[simp] theorem State.latch_calls (op : Op) (arg : Half) (s : State) : (s.latch op arg).calls = s.calls := rfl
@[simp] theorem State.latch_txAnswers (op : Op) (arg : Half) (s : State) : (s.latch op arg).txAnswers = s.txAnswers := rfl
@[simp] theorem State.latch_rxAnswers (op : Op) (arg : Half) (s : State) : (s.latch op arg).rxAnswers = s.rxAnswers := rfl
@[simp] theorem State.latch_requests (op : Op) (arg : Half) (s : State) : (s.latch op arg).requests = s.requests := rfl
@[simp] theorem State.latch_resReady (op : Op) (arg : Half) (s : State) : (s.latch op arg).resReady = s.resReady := rfl
@[simp] theorem State.latch_received (op : Op) (arg : Half) (s : State) : (s.latch op arg).received = s.received := rfl
@[simp] theorem State.latch_refusedOffers (op : Op) (arg : Half) (s : State) : (s.latch op arg).refusedOffers = s.refusedOffers := rfl
@[simp] theorem State.latch_draws (op : Op) (arg : Half) (s : State) : (s.latch op arg).draws = s.draws := rfl

/-! ### State.issue -/

@[simp] theorem State.issue_phase (c : Call) (s : State) : (s.issue c).phase = s.phase := rfl
@[simp] theorem State.issue_opQ (c : Call) (s : State) : (s.issue c).opQ = s.opQ := rfl
@[simp] theorem State.issue_argQ (c : Call) (s : State) : (s.issue c).argQ = s.argQ := rfl
@[simp] theorem State.issue_rsp (c : Call) (s : State) : (s.issue c).rsp = s.rsp := rfl
@[simp] theorem State.issue_resErr (c : Call) (s : State) : (s.issue c).resErr = s.resErr := rfl
@[simp] theorem State.issue_resVal (c : Call) (s : State) : (s.issue c).resVal = s.resVal := rfl
@[simp] theorem State.issue_outstanding (c : Call) (s : State) : (s.issue c).outstanding = true := rfl
@[simp] theorem State.issue_tx (c : Call) (s : State) : (s.issue c).tx = s.tx := rfl
@[simp] theorem State.issue_rx (c : Call) (s : State) : (s.issue c).rx = s.rx := rfl
@[simp] theorem State.issue_calls (c : Call) (s : State) : (s.issue c).calls = s.calls ++ [c] := rfl
@[simp] theorem State.issue_txAnswers (c : Call) (s : State) : (s.issue c).txAnswers = s.txAnswers := rfl
@[simp] theorem State.issue_rxAnswers (c : Call) (s : State) : (s.issue c).rxAnswers = s.rxAnswers := rfl
@[simp] theorem State.issue_requests (c : Call) (s : State) : (s.issue c).requests = s.requests := rfl
@[simp] theorem State.issue_resReady (c : Call) (s : State) : (s.issue c).resReady = s.resReady := rfl
@[simp] theorem State.issue_received (c : Call) (s : State) : (s.issue c).received = s.received := rfl
@[simp] theorem State.issue_refusedOffers (c : Call) (s : State) : (s.issue c).refusedOffers = s.refusedOffers := rfl
@[simp] theorem State.issue_draws (c : Call) (s : State) : (s.issue c).draws = s.draws := rfl

/-! ### State.transmit -/

@[simp] theorem State.transmit_phase (sent : List Byte) (rest : List WriteAnswer) (s : State) : (s.transmit sent rest).phase = s.phase := rfl
@[simp] theorem State.transmit_opQ (sent : List Byte) (rest : List WriteAnswer) (s : State) : (s.transmit sent rest).opQ = s.opQ := rfl
@[simp] theorem State.transmit_argQ (sent : List Byte) (rest : List WriteAnswer) (s : State) : (s.transmit sent rest).argQ = s.argQ := rfl
@[simp] theorem State.transmit_rsp (sent : List Byte) (rest : List WriteAnswer) (s : State) : (s.transmit sent rest).rsp = s.rsp := rfl
@[simp] theorem State.transmit_resErr (sent : List Byte) (rest : List WriteAnswer) (s : State) : (s.transmit sent rest).resErr = s.resErr := rfl
@[simp] theorem State.transmit_resVal (sent : List Byte) (rest : List WriteAnswer) (s : State) : (s.transmit sent rest).resVal = s.resVal := rfl
@[simp] theorem State.transmit_outstanding (sent : List Byte) (rest : List WriteAnswer) (s : State) : (s.transmit sent rest).outstanding = s.outstanding := rfl
@[simp] theorem State.transmit_tx (sent : List Byte) (rest : List WriteAnswer) (s : State) : (s.transmit sent rest).tx = s.tx ++ sent := rfl
@[simp] theorem State.transmit_rx (sent : List Byte) (rest : List WriteAnswer) (s : State) : (s.transmit sent rest).rx = s.rx := rfl
@[simp] theorem State.transmit_calls (sent : List Byte) (rest : List WriteAnswer) (s : State) : (s.transmit sent rest).calls = s.calls := rfl
@[simp] theorem State.transmit_txAnswers (sent : List Byte) (rest : List WriteAnswer) (s : State) : (s.transmit sent rest).txAnswers = rest := rfl
@[simp] theorem State.transmit_rxAnswers (sent : List Byte) (rest : List WriteAnswer) (s : State) : (s.transmit sent rest).rxAnswers = s.rxAnswers := rfl
@[simp] theorem State.transmit_requests (sent : List Byte) (rest : List WriteAnswer) (s : State) : (s.transmit sent rest).requests = s.requests := rfl
@[simp] theorem State.transmit_resReady (sent : List Byte) (rest : List WriteAnswer) (s : State) : (s.transmit sent rest).resReady = s.resReady := rfl
@[simp] theorem State.transmit_received (sent : List Byte) (rest : List WriteAnswer) (s : State) : (s.transmit sent rest).received = s.received := rfl
@[simp] theorem State.transmit_refusedOffers (sent : List Byte) (rest : List WriteAnswer) (s : State) : (s.transmit sent rest).refusedOffers = s.refusedOffers := rfl
@[simp] theorem State.transmit_draws (sent : List Byte) (rest : List WriteAnswer) (s : State) : (s.transmit sent rest).draws = s.draws := rfl

/-! ### State.consume -/

@[simp] theorem State.consume_phase (taken : Nat) (rest : List ReadAnswer) (s : State) : (s.consume taken rest).phase = s.phase := rfl
@[simp] theorem State.consume_opQ (taken : Nat) (rest : List ReadAnswer) (s : State) : (s.consume taken rest).opQ = s.opQ := rfl
@[simp] theorem State.consume_argQ (taken : Nat) (rest : List ReadAnswer) (s : State) : (s.consume taken rest).argQ = s.argQ := rfl
@[simp] theorem State.consume_rsp (taken : Nat) (rest : List ReadAnswer) (s : State) : (s.consume taken rest).rsp = s.rsp := rfl
@[simp] theorem State.consume_resErr (taken : Nat) (rest : List ReadAnswer) (s : State) : (s.consume taken rest).resErr = s.resErr := rfl
@[simp] theorem State.consume_resVal (taken : Nat) (rest : List ReadAnswer) (s : State) : (s.consume taken rest).resVal = s.resVal := rfl
@[simp] theorem State.consume_outstanding (taken : Nat) (rest : List ReadAnswer) (s : State) : (s.consume taken rest).outstanding = s.outstanding := rfl
@[simp] theorem State.consume_tx (taken : Nat) (rest : List ReadAnswer) (s : State) : (s.consume taken rest).tx = s.tx := rfl
@[simp] theorem State.consume_rx (taken : Nat) (rest : List ReadAnswer) (s : State) : (s.consume taken rest).rx = s.rx.drop taken := rfl
@[simp] theorem State.consume_calls (taken : Nat) (rest : List ReadAnswer) (s : State) : (s.consume taken rest).calls = s.calls := rfl
@[simp] theorem State.consume_txAnswers (taken : Nat) (rest : List ReadAnswer) (s : State) : (s.consume taken rest).txAnswers = s.txAnswers := rfl
@[simp] theorem State.consume_rxAnswers (taken : Nat) (rest : List ReadAnswer) (s : State) : (s.consume taken rest).rxAnswers = rest := rfl
@[simp] theorem State.consume_requests (taken : Nat) (rest : List ReadAnswer) (s : State) : (s.consume taken rest).requests = s.requests := rfl
@[simp] theorem State.consume_resReady (taken : Nat) (rest : List ReadAnswer) (s : State) : (s.consume taken rest).resReady = s.resReady := rfl
@[simp] theorem State.consume_received (taken : Nat) (rest : List ReadAnswer) (s : State) : (s.consume taken rest).received = s.received := rfl
@[simp] theorem State.consume_refusedOffers (taken : Nat) (rest : List ReadAnswer) (s : State) : (s.consume taken rest).refusedOffers = s.refusedOffers := rfl
@[simp] theorem State.consume_draws (taken : Nat) (rest : List ReadAnswer) (s : State) : (s.consume taken rest).draws = s.draws := rfl

/-! ### State.setRsp -/

@[simp] theorem State.setRsp_phase (p : Byte × Byte) (s : State) : (s.setRsp p).phase = s.phase := rfl
@[simp] theorem State.setRsp_opQ (p : Byte × Byte) (s : State) : (s.setRsp p).opQ = s.opQ := rfl
@[simp] theorem State.setRsp_argQ (p : Byte × Byte) (s : State) : (s.setRsp p).argQ = s.argQ := rfl
@[simp] theorem State.setRsp_rsp (p : Byte × Byte) (s : State) : (s.setRsp p).rsp = p := rfl
@[simp] theorem State.setRsp_resErr (p : Byte × Byte) (s : State) : (s.setRsp p).resErr = s.resErr := rfl
@[simp] theorem State.setRsp_resVal (p : Byte × Byte) (s : State) : (s.setRsp p).resVal = s.resVal := rfl
@[simp] theorem State.setRsp_outstanding (p : Byte × Byte) (s : State) : (s.setRsp p).outstanding = s.outstanding := rfl
@[simp] theorem State.setRsp_tx (p : Byte × Byte) (s : State) : (s.setRsp p).tx = s.tx := rfl
@[simp] theorem State.setRsp_rx (p : Byte × Byte) (s : State) : (s.setRsp p).rx = s.rx := rfl
@[simp] theorem State.setRsp_calls (p : Byte × Byte) (s : State) : (s.setRsp p).calls = s.calls := rfl
@[simp] theorem State.setRsp_txAnswers (p : Byte × Byte) (s : State) : (s.setRsp p).txAnswers = s.txAnswers := rfl
@[simp] theorem State.setRsp_rxAnswers (p : Byte × Byte) (s : State) : (s.setRsp p).rxAnswers = s.rxAnswers := rfl
@[simp] theorem State.setRsp_requests (p : Byte × Byte) (s : State) : (s.setRsp p).requests = s.requests := rfl
@[simp] theorem State.setRsp_resReady (p : Byte × Byte) (s : State) : (s.setRsp p).resReady = s.resReady := rfl
@[simp] theorem State.setRsp_received (p : Byte × Byte) (s : State) : (s.setRsp p).received = s.received := rfl
@[simp] theorem State.setRsp_refusedOffers (p : Byte × Byte) (s : State) : (s.setRsp p).refusedOffers = s.refusedOffers := rfl
@[simp] theorem State.setRsp_draws (p : Byte × Byte) (s : State) : (s.setRsp p).draws = s.draws := rfl

/-! ### State.enterRead -/

@[simp] theorem State.enterRead_phase (s : State) : (s.enterRead).phase = .read := rfl
@[simp] theorem State.enterRead_opQ (s : State) : (s.enterRead).opQ = s.opQ := rfl
@[simp] theorem State.enterRead_argQ (s : State) : (s.enterRead).argQ = s.argQ := rfl
@[simp] theorem State.enterRead_rsp (s : State) : (s.enterRead).rsp = s.rsp := rfl
@[simp] theorem State.enterRead_resErr (s : State) : (s.enterRead).resErr = s.resErr := rfl
@[simp] theorem State.enterRead_resVal (s : State) : (s.enterRead).resVal = s.resVal := rfl
@[simp] theorem State.enterRead_outstanding (s : State) : (s.enterRead).outstanding = false := rfl
@[simp] theorem State.enterRead_tx (s : State) : (s.enterRead).tx = s.tx := rfl
@[simp] theorem State.enterRead_rx (s : State) : (s.enterRead).rx = s.rx := rfl
@[simp] theorem State.enterRead_calls (s : State) : (s.enterRead).calls = s.calls := rfl
@[simp] theorem State.enterRead_txAnswers (s : State) : (s.enterRead).txAnswers = s.txAnswers := rfl
@[simp] theorem State.enterRead_rxAnswers (s : State) : (s.enterRead).rxAnswers = s.rxAnswers := rfl
@[simp] theorem State.enterRead_requests (s : State) : (s.enterRead).requests = s.requests := rfl
@[simp] theorem State.enterRead_resReady (s : State) : (s.enterRead).resReady = s.resReady := rfl
@[simp] theorem State.enterRead_received (s : State) : (s.enterRead).received = s.received := rfl
@[simp] theorem State.enterRead_refusedOffers (s : State) : (s.enterRead).refusedOffers = s.refusedOffers := rfl
@[simp] theorem State.enterRead_draws (s : State) : (s.enterRead).draws = s.draws := rfl

/-! ### State.postOk -/

@[simp] theorem State.postOk_phase (v : Half) (s : State) : (s.postOk v).phase = .done := rfl
@[simp] theorem State.postOk_opQ (v : Half) (s : State) : (s.postOk v).opQ = s.opQ := rfl
@[simp] theorem State.postOk_argQ (v : Half) (s : State) : (s.postOk v).argQ = s.argQ := rfl
@[simp] theorem State.postOk_rsp (v : Half) (s : State) : (s.postOk v).rsp = s.rsp := rfl
@[simp] theorem State.postOk_resErr (v : Half) (s : State) : (s.postOk v).resErr = false := rfl
@[simp] theorem State.postOk_resVal (v : Half) (s : State) : (s.postOk v).resVal = v := rfl
@[simp] theorem State.postOk_outstanding (v : Half) (s : State) : (s.postOk v).outstanding = false := rfl
@[simp] theorem State.postOk_tx (v : Half) (s : State) : (s.postOk v).tx = s.tx := rfl
@[simp] theorem State.postOk_rx (v : Half) (s : State) : (s.postOk v).rx = s.rx := rfl
@[simp] theorem State.postOk_calls (v : Half) (s : State) : (s.postOk v).calls = s.calls := rfl
@[simp] theorem State.postOk_txAnswers (v : Half) (s : State) : (s.postOk v).txAnswers = s.txAnswers := rfl
@[simp] theorem State.postOk_rxAnswers (v : Half) (s : State) : (s.postOk v).rxAnswers = s.rxAnswers := rfl
@[simp] theorem State.postOk_requests (v : Half) (s : State) : (s.postOk v).requests = s.requests := rfl
@[simp] theorem State.postOk_resReady (v : Half) (s : State) : (s.postOk v).resReady = s.resReady := rfl
@[simp] theorem State.postOk_received (v : Half) (s : State) : (s.postOk v).received = s.received := rfl
@[simp] theorem State.postOk_refusedOffers (v : Half) (s : State) : (s.postOk v).refusedOffers = s.refusedOffers := rfl
@[simp] theorem State.postOk_draws (v : Half) (s : State) : (s.postOk v).draws = s.draws := rfl

/-! ### State.postError -/

@[simp] theorem State.postError_phase (s : State) : (s.postError).phase = .done := rfl
@[simp] theorem State.postError_opQ (s : State) : (s.postError).opQ = s.opQ := rfl
@[simp] theorem State.postError_argQ (s : State) : (s.postError).argQ = s.argQ := rfl
@[simp] theorem State.postError_rsp (s : State) : (s.postError).rsp = s.rsp := rfl
@[simp] theorem State.postError_resErr (s : State) : (s.postError).resErr = true := rfl
@[simp] theorem State.postError_resVal (s : State) : (s.postError).resVal = Config.freeResValOnError s.draws := rfl
@[simp] theorem State.postError_outstanding (s : State) : (s.postError).outstanding = false := rfl
@[simp] theorem State.postError_tx (s : State) : (s.postError).tx = s.tx := rfl
@[simp] theorem State.postError_rx (s : State) : (s.postError).rx = s.rx := rfl
@[simp] theorem State.postError_calls (s : State) : (s.postError).calls = s.calls := rfl
@[simp] theorem State.postError_txAnswers (s : State) : (s.postError).txAnswers = s.txAnswers := rfl
@[simp] theorem State.postError_rxAnswers (s : State) : (s.postError).rxAnswers = s.rxAnswers := rfl
@[simp] theorem State.postError_requests (s : State) : (s.postError).requests = s.requests := rfl
@[simp] theorem State.postError_resReady (s : State) : (s.postError).resReady = s.resReady := rfl
@[simp] theorem State.postError_received (s : State) : (s.postError).received = s.received := rfl
@[simp] theorem State.postError_refusedOffers (s : State) : (s.postError).refusedOffers = s.refusedOffers := rfl
@[simp] theorem State.postError_draws (s : State) : (s.postError).draws = s.draws + 1 := rfl

/-! ### State.handOver -/

@[simp] theorem State.handOver_phase (s : State) : (s.handOver).phase = .idle := rfl
@[simp] theorem State.handOver_opQ (s : State) : (s.handOver).opQ = Config.freeOp s.draws := rfl
@[simp] theorem State.handOver_argQ (s : State) : (s.handOver).argQ = Config.freeArg s.draws := rfl
@[simp] theorem State.handOver_rsp (s : State) : (s.handOver).rsp = Config.freeRsp s.draws := rfl
@[simp] theorem State.handOver_resErr (s : State) : (s.handOver).resErr = Config.freeResErr s.draws := rfl
@[simp] theorem State.handOver_resVal (s : State) : (s.handOver).resVal = Config.freeResVal s.draws := rfl
@[simp] theorem State.handOver_outstanding (s : State) : (s.handOver).outstanding = s.outstanding := rfl
@[simp] theorem State.handOver_tx (s : State) : (s.handOver).tx = s.tx := rfl
@[simp] theorem State.handOver_rx (s : State) : (s.handOver).rx = s.rx := rfl
@[simp] theorem State.handOver_calls (s : State) : (s.handOver).calls = s.calls := rfl
@[simp] theorem State.handOver_txAnswers (s : State) : (s.handOver).txAnswers = s.txAnswers := rfl
@[simp] theorem State.handOver_rxAnswers (s : State) : (s.handOver).rxAnswers = s.rxAnswers := rfl
@[simp] theorem State.handOver_requests (s : State) : (s.handOver).requests = s.requests := rfl
@[simp] theorem State.handOver_resReady (s : State) : (s.handOver).resReady = s.resReady := rfl
@[simp] theorem State.handOver_received (s : State) : (s.handOver).received = s.received ++ [⟨s.resErr, s.resVal⟩] := rfl
@[simp] theorem State.handOver_refusedOffers (s : State) : (s.handOver).refusedOffers = s.refusedOffers := rfl
@[simp] theorem State.handOver_draws (s : State) : (s.handOver).draws = s.draws + 1 := rfl

/-! ### State.refuseOffer -/

@[simp] theorem State.refuseOffer_phase (r : Request) (s : State) : (s.refuseOffer r).phase = s.phase := rfl
@[simp] theorem State.refuseOffer_opQ (r : Request) (s : State) : (s.refuseOffer r).opQ = s.opQ := rfl
@[simp] theorem State.refuseOffer_argQ (r : Request) (s : State) : (s.refuseOffer r).argQ = s.argQ := rfl
@[simp] theorem State.refuseOffer_rsp (r : Request) (s : State) : (s.refuseOffer r).rsp = s.rsp := rfl
@[simp] theorem State.refuseOffer_resErr (r : Request) (s : State) : (s.refuseOffer r).resErr = s.resErr := rfl
@[simp] theorem State.refuseOffer_resVal (r : Request) (s : State) : (s.refuseOffer r).resVal = s.resVal := rfl
@[simp] theorem State.refuseOffer_outstanding (r : Request) (s : State) : (s.refuseOffer r).outstanding = s.outstanding := rfl
@[simp] theorem State.refuseOffer_tx (r : Request) (s : State) : (s.refuseOffer r).tx = s.tx := rfl
@[simp] theorem State.refuseOffer_rx (r : Request) (s : State) : (s.refuseOffer r).rx = s.rx := rfl
@[simp] theorem State.refuseOffer_calls (r : Request) (s : State) : (s.refuseOffer r).calls = s.calls := rfl
@[simp] theorem State.refuseOffer_txAnswers (r : Request) (s : State) : (s.refuseOffer r).txAnswers = s.txAnswers := rfl
@[simp] theorem State.refuseOffer_rxAnswers (r : Request) (s : State) : (s.refuseOffer r).rxAnswers = s.rxAnswers := rfl
@[simp] theorem State.refuseOffer_requests (r : Request) (s : State) : (s.refuseOffer r).requests = s.requests := rfl
@[simp] theorem State.refuseOffer_resReady (r : Request) (s : State) : (s.refuseOffer r).resReady = s.resReady := rfl
@[simp] theorem State.refuseOffer_received (r : Request) (s : State) : (s.refuseOffer r).received = s.received := rfl
@[simp] theorem State.refuseOffer_refusedOffers (r : Request) (s : State) : (s.refuseOffer r).refusedOffers = s.refusedOffers ++ [r] := rfl
@[simp] theorem State.refuseOffer_draws (r : Request) (s : State) : (s.refuseOffer r).draws = s.draws := rfl

/-! ### State.dropOffer -/

@[simp] theorem State.dropOffer_phase (s : State) : (s.dropOffer).phase = s.phase := rfl
@[simp] theorem State.dropOffer_opQ (s : State) : (s.dropOffer).opQ = s.opQ := rfl
@[simp] theorem State.dropOffer_argQ (s : State) : (s.dropOffer).argQ = s.argQ := rfl
@[simp] theorem State.dropOffer_rsp (s : State) : (s.dropOffer).rsp = s.rsp := rfl
@[simp] theorem State.dropOffer_resErr (s : State) : (s.dropOffer).resErr = s.resErr := rfl
@[simp] theorem State.dropOffer_resVal (s : State) : (s.dropOffer).resVal = s.resVal := rfl
@[simp] theorem State.dropOffer_outstanding (s : State) : (s.dropOffer).outstanding = s.outstanding := rfl
@[simp] theorem State.dropOffer_tx (s : State) : (s.dropOffer).tx = s.tx := rfl
@[simp] theorem State.dropOffer_rx (s : State) : (s.dropOffer).rx = s.rx := rfl
@[simp] theorem State.dropOffer_calls (s : State) : (s.dropOffer).calls = s.calls := rfl
@[simp] theorem State.dropOffer_txAnswers (s : State) : (s.dropOffer).txAnswers = s.txAnswers := rfl
@[simp] theorem State.dropOffer_rxAnswers (s : State) : (s.dropOffer).rxAnswers = s.rxAnswers := rfl
@[simp] theorem State.dropOffer_requests (s : State) : (s.dropOffer).requests = s.requests.tail := rfl
@[simp] theorem State.dropOffer_resReady (s : State) : (s.dropOffer).resReady = s.resReady := rfl
@[simp] theorem State.dropOffer_received (s : State) : (s.dropOffer).received = s.received := rfl
@[simp] theorem State.dropOffer_refusedOffers (s : State) : (s.dropOffer).refusedOffers = s.refusedOffers := rfl
@[simp] theorem State.dropOffer_draws (s : State) : (s.dropOffer).draws = s.draws := rfl

@[simp] theorem command_issue (c : Call) (s : State) : command (s.issue c) = command s := rfl
@[simp] theorem command_latch (op : Op) (arg : Half) (s : State) : command (s.latch op arg) = commandBytes op arg := rfl
@[simp] theorem command_transmit (sent : List Byte) (rest : List WriteAnswer) (s : State) : command (s.transmit sent rest) = command s := rfl
@[simp] theorem command_enterRead (s : State) : command s.enterRead = command s := rfl

end Sys2Proof.Machine
end

