-- ==== Sys2Proof/Laws/Ops.lean ====
section
/-! SUPPORT. For each shared operation of Machine/Ops.lean, once, everything it can do. -/

namespace Sys2Proof.Machine

/-! ### The judgements -/

theorem judgeWrite_ok_iff {n : Nat} {a : WriteAnswer} : judgeWrite n a = .ok () ↔ a = .ok n := by
  cases a with
  | ok k => by_cases h : k = n <;> simp [judgeWrite, h]
  | ioErr => simp [judgeWrite]

/-- Every answer but the exact count is a failure of the write. -/
theorem judgeWrite_error {n : Nat} {a : WriteAnswer} (h : a ≠ .ok n) :
    ∃ c, judgeWrite n a = .error c := by
  cases hj : judgeWrite n a with
  | error c => exact ⟨c, rfl⟩
  | ok u => exact absurd (judgeWrite_ok_iff.mp hj) h

theorem judgeRead_ok_iff {r : ReadAnswer} {b0 b1 : Byte} :
    judgeRead r = .ok (b0, b1) ↔ r = .ok 2 [b0, b1] := by
  cases r with
  | ioErr => simp [judgeRead]
  | ok k data =>
    by_cases hk : k = 2
    · subst hk
      match data with
      | [] => simp [judgeRead, Config.replyLen]
      | [_] => simp [judgeRead, Config.replyLen]
      | [_, _] => simp [judgeRead, Config.replyLen]
      | _ :: _ :: _ :: _ => simp [judgeRead, Config.replyLen]
    · simp [judgeRead, Config.replyLen, hk]

/-- Every answer but two bytes is a failure of the read. -/
theorem judgeRead_error {r : ReadAnswer} (h : ∀ b0 b1, r ≠ .ok 2 [b0, b1]) :
    ∃ c, judgeRead r = .error c := by
  cases hj : judgeRead r with
  | error c => exact ⟨c, rfl⟩
  | ok p => exact absurd (judgeRead_ok_iff.mp hj) (h p.1 p.2)

/-! ### Accepting, issuing, delivering -/

theorem accept_idle {s : State} (h : s.phase = .idle) (op : Op) (arg : Half) :
    accept op arg s = s.latch op arg := by simp [accept, h]

theorem accept_busy {s : State} (h : s.phase ≠ .idle) (op : Op) (arg : Half) :
    accept op arg s = s := by simp [accept, h]

/-- WRITE-ISSUE either issues its call, in WRITE with none outstanding, or does nothing. -/
theorem writeIssue_cases (cmd : List Byte) (s : State) :
    (s.phase = .write ∧ s.outstanding = false ∧ writeIssue cmd s = s.issue (.write cmd)) ∨
      ((s.phase ≠ .write ∨ s.outstanding = true) ∧ writeIssue cmd s = s) := by
  unfold writeIssue
  split
  · next h => exact .inl ⟨h.1, h.2, rfl⟩
  · next h =>
    refine .inr ⟨?_, rfl⟩
    by_cases hp : s.phase = .write
    · exact .inr (by simpa [hp] using h)
    · exact .inl hp

/-- READ-ISSUE either issues its call, in READ with none outstanding, or does nothing. -/
theorem readIssue_cases (s : State) :
    (s.phase = .read ∧ s.outstanding = false ∧ readIssue s = s.issue (.read 2)) ∨
      ((s.phase ≠ .read ∨ s.outstanding = true) ∧ readIssue s = s) := by
  unfold readIssue
  split
  · next h => exact .inl ⟨h.1, h.2, rfl⟩
  · next h =>
    refine .inr ⟨?_, rfl⟩
    by_cases hp : s.phase = .read
    · exact .inr (by simpa [hp] using h)
    · exact .inl hp

/-- DELIVER either hands the result over, in DONE with the host ready, or does nothing. -/
theorem deliver_cases (s : State) :
    (s.phase = .done ∧ s.resReady = true ∧ deliver s = s.handOver) ∨
      ((s.phase ≠ .done ∨ s.resReady = false) ∧ deliver s = s) := by
  unfold deliver
  split
  · next h => exact .inl ⟨h.1, h.2, rfl⟩
  · next h =>
    refine .inr ⟨?_, rfl⟩
    by_cases hp : s.phase = .done
    · exact .inr (by simpa [hp] using h)
    · exact .inl hp

/-! ### Answers -/

/-- The state a write answer leaves TX and the answers in, before it is judged. -/
def afterSent (cmd : List Byte) (a : WriteAnswer) (rest : List WriteAnswer) (s : State) : State :=
  s.transmit (sentBytes cmd s.draws a) rest

/-- The bytes of a write that reached TX are a prefix of the command, whatever the answer. -/
theorem sentBytes_prefix (cmd : List Byte) (draw : Nat) (a : WriteAnswer) :
    ∃ k ≤ cmd.length, sentBytes cmd draw a = cmd.take k := by
  cases a with
  | ok k =>
    by_cases h : k ≤ cmd.length
    · exact ⟨k, h, rfl⟩
    · refine ⟨cmd.length, le_refl _, ?_⟩
      simp [sentBytes, List.take_of_length_le (le_of_not_ge h)]
  | ioErr => exact ⟨_, Nat.le_of_lt_succ (Nat.mod_lt _ (Nat.succ_pos _)), rfl⟩

theorem sentBytes_whole (cmd : List Byte) (draw : Nat) :
    sentBytes cmd draw (.ok cmd.length) = cmd := by simp [sentBytes]

/-- A failed read took at most two bytes on an I/O error. -/
theorem takenCount_ioErr_le (draw : Nat) : takenCount draw .ioErr ≤ 2 := by
  have := Nat.mod_lt (Config.freeTaken draw) (show 0 < Config.replyLen + 1 by decide)
  simp only [takenCount]
  simp only [Config.replyLen] at this ⊢
  omega

/-- WRITE-ANSWER: nothing (no call out, or no answer); the error; or success, on the exact count. -/
theorem writeAnswer_cases (cmd : List Byte) (reply : Bool) (s : State) :
    ((s.phase ≠ .write ∨ s.outstanding = false ∨ s.txAnswers = []) ∧ writeAnswer cmd reply s = s) ∨
    (s.phase = .write ∧ s.outstanding = true ∧ ∃ a rest, s.txAnswers = a :: rest ∧
      a ≠ .ok cmd.length ∧ writeAnswer cmd reply s = (afterSent cmd a rest s).postError) ∨
    (s.phase = .write ∧ s.outstanding = true ∧ ∃ rest, s.txAnswers = .ok cmd.length :: rest ∧
      writeAnswer cmd reply s =
        if reply then (s.transmit cmd rest).enterRead
        else (s.transmit cmd rest).postOk Config.success) := by
  by_cases hp : s.phase = .write
  · cases ho : s.outstanding with
    | false => exact .inl ⟨.inr (.inl rfl), by simp [writeAnswer, ho]⟩
    | true =>
      cases ha : s.txAnswers with
      | nil => exact .inl ⟨.inr (.inr rfl), by simp [writeAnswer, hp, ho, ha]⟩
      | cons a rest =>
        right
        by_cases hk : a = .ok cmd.length
        · right
          subst hk
          refine ⟨hp, rfl, rest, rfl, ?_⟩
          simp [writeAnswer, hp, ho, ha, judgeWrite, sentBytes]
        · left
          obtain ⟨c, hc⟩ := judgeWrite_error hk
          refine ⟨hp, rfl, a, rest, rfl, hk, ?_⟩
          simp [writeAnswer, hp, ho, ha, hc, afterSent, raiseSerialError]
  · exact .inl ⟨.inl hp, by simp [writeAnswer, hp]⟩

/-- READ-ANSWER: nothing (no call out, or no answer); the error; or success, on two bytes. -/
theorem readAnswer_cases (s : State) :
    ((s.phase ≠ .read ∨ s.outstanding = false ∨ s.rxAnswers = []) ∧ readAnswer s = s) ∨
    (s.phase = .read ∧ s.outstanding = true ∧ ∃ r rest, s.rxAnswers = r :: rest ∧
      (∀ b0 b1, r ≠ .ok 2 [b0, b1]) ∧ readAnswer s =
        ((s.consume (takenCount s.draws r) rest).setRsp (Config.freeRsp s.draws)).postError) ∨
    (s.phase = .read ∧ s.outstanding = true ∧ ∃ b0 b1 rest,
      s.rxAnswers = .ok 2 [b0, b1] :: rest ∧
      readAnswer s = ((s.consume 2 rest).setRsp (b0, b1)).postOk (u16 b0 b1)) := by
  by_cases hp : s.phase = .read
  · cases ho : s.outstanding with
    | false => exact .inl ⟨.inr (.inl rfl), by simp [readAnswer, ho]⟩
    | true =>
      cases ha : s.rxAnswers with
      | nil => exact .inl ⟨.inr (.inr rfl), by simp [readAnswer, hp, ho, ha]⟩
      | cons r rest =>
        right
        by_cases hr : ∃ b0 b1, r = .ok 2 [b0, b1]
        · right
          obtain ⟨b0, b1, rfl⟩ := hr
          refine ⟨hp, rfl, b0, b1, rest, rfl, ?_⟩
          have hj : judgeRead (.ok 2 [b0, b1]) = .ok (b0, b1) := judgeRead_ok_iff.mpr rfl
          simp [readAnswer, hp, ho, ha, hj, takenCount]
        · left
          have hr' : ∀ b0 b1, r ≠ .ok 2 [b0, b1] := fun b0 b1 h => hr ⟨b0, b1, h⟩
          obtain ⟨c, hc⟩ := judgeRead_error hr'
          refine ⟨hp, rfl, r, rest, rfl, hr', ?_⟩
          simp [readAnswer, hp, ho, ha, hc, raiseSerialError]
  · exact .inl ⟨.inl hp, by simp [readAnswer, hp]⟩

/-! ### Sequences -/

theorem operate_busy {s : State} (h : s.phase ≠ .idle) (op : Op) (arg : Half) :
    operate op arg s = s := by simp [operate, h]

theorem operate_idle {s : State} (h : s.phase = .idle) (op : Op) (arg : Half) :
    operate op arg s =
      if expectsReply op then sendAndReceive (commandBytes op arg) (s.latch op arg)
      else sendOnly (commandBytes op arg) (s.latch op arg) := by
  simp [operate, accept, h]

theorem ticks_succ (n : Nat) (s : State) : ticks (n + 1) s = ticks n (tick s) := rfl

theorem ticks_add (m n : Nat) (s : State) : ticks (m + n) s = ticks n (ticks m s) := by
  induction m generalizing s with
  | zero => simp [ticks]
  | succ m ih => rw [Nat.succ_add, ticks_succ, ticks_succ, ih]

end Sys2Proof.Machine
end

