-- ==== Sys2Proof/Laws/PerInstr.lean ====
section
/-! SUPPORT. Statements about an instruction as syntax, one lemma per constructor. -/

namespace Sys2Proof.Laws

/-- 30_encoding.md R64: a wire command has its row's length in bytes; a host request puts no byte on the
wire by itself. -/
def WireLength.Statement (i : Instr) : Prop :=
  (encode i).bytes.length =
    match i with
    | .exitSafeStart => 1
    | .setSpeedFwd _ => 3
    | .setSpeedRev _ => 3
    | .readVar _ => 2
    | .getvar _ _ => 0
    | .getspd _ => 0
    | .geterr _ => 0
    | .exitss _ => 0
    | .setspd _ => 0

theorem WireLength.exitSafeStart : WireLength.Statement .exitSafeStart := rfl
theorem WireLength.setSpeedFwd (m : Nat) : WireLength.Statement (.setSpeedFwd m) := rfl
theorem WireLength.setSpeedRev (m : Nat) : WireLength.Statement (.setSpeedRev m) := rfl
theorem WireLength.readVar (id : Byte) : WireLength.Statement (.readVar id) := rfl
theorem WireLength.getvar (ignored id : Byte) : WireLength.Statement (.getvar ignored id) := rfl
theorem WireLength.getspd (ignored : Half) : WireLength.Statement (.getspd ignored) := rfl
theorem WireLength.geterr (ignored : Half) : WireLength.Statement (.geterr ignored) := rfl
theorem WireLength.exitss (ignored : Half) : WireLength.Statement (.exitss ignored) := rfl
theorem WireLength.setspd (speed : Half) : WireLength.Statement (.setspd speed) := rfl

end Sys2Proof.Laws
end

