-- ==== Sys2Proof/Tests/Slice0.lean ====
section
/-! SUPPORT. The model's own tests: the well-formedness smoke, decoding, the spec's vectors
(spec/95_test_vectors.md) one step each, and a witness for the hypotheses of every statement. -/

namespace Sys2Proof.Tests

open Sys2Proof.Machine

/-! ### Helpers -/

def stateOf : Outcome → Option State
  | .next s => some s
  | .fault _ => none
  | .refused _ => none

/-- An idle SPED with the answers the transport will give. -/
def idleWith (ta : List WriteAnswer) (ra : List ReadAnswer) : State :=
  { State.reset with txAnswers := ta, rxAnswers := ra }

/-- An operation latched and waiting in WRITE, its call not yet out. -/
def latched (op : Op) (arg : Half) (ta : List WriteAnswer) (ra : List ReadAnswer) : State :=
  (idleWith ta ra).latch op arg

/-- The same with its call out. -/
def writing (op : Op) (arg : Half) (ta : List WriteAnswer) (ra : List ReadAnswer) : State :=
  (latched op arg ta ra).issue (.write (commandBytes op arg))

/-- A variable read whose command is out, its read not yet issued. -/
def toRead (op : Op) (arg : Half) (ra : List ReadAnswer) : State :=
  ((writing op arg [] ra).transmit (commandBytes op arg) []).enterRead

/-- The same with its read out. -/
def reading2 (op : Op) (arg : Half) (ra : List ReadAnswer) : State :=
  (toRead op arg ra).issue (.read 2)

/-- An operation that has ended. -/
def ended (op : Op) (arg val : Half) (ready : Bool) : State :=
  { ((latched op arg [] []).postOk val) with resReady := ready }

/-- What one host operation answers: result bits, TX, RX and the number of calls. -/
def outcome (i : Instr) (s : State) : Option (Phase × Bool × Half × List Byte × List Call) :=
  (stateOf (exec i s)).map fun t => (t.phase, t.resErr, t.resVal, t.tx, t.calls)

/-- The parts of an outcome that a failed operation fixes (res_val is free there). -/
def failure (i : Instr) (s : State) : Option (Phase × Bool × List Byte × List Call) :=
  (stateOf (exec i s)).map fun t => (t.phase, t.resErr, t.tx, t.calls)

/-! ### WellFormed: a term for each check that it refuses, and the last one it takes -/

theorem test_wellFormed_refuses_fwd_4096 : (Instr.setSpeedFwd 4096).wellFormed = false := by decide
theorem test_wellFormed_refuses_rev_4096 : (Instr.setSpeedRev 4096).wellFormed = false := by decide
theorem test_wellFormed_takes_fwd_4095 : (Instr.setSpeedFwd 4095).wellFormed = true := by decide
theorem test_wellFormed_takes_rev_4095 : (Instr.setSpeedRev 4095).wellFormed = true := by decide

/-! ### Decode: every constructor by a word written out from 30_encoding.md R51 to R54 -/

theorem test_decode_exitSafeStart : decode (.wire [0b10000011#8]) = .ok .exitSafeStart := by decide
theorem test_decode_setSpeedFwd :
    decode (.wire [0b10000101#8, 0b00000100#8, 0b00000011#8]) = .ok (.setSpeedFwd 100) := by decide
theorem test_decode_setSpeedRev :
    decode (.wire [0b10000110#8, 0b00000000#8, 0b01100100#8]) = .ok (.setSpeedRev 3200) := by decide
theorem test_decode_readVar :
    decode (.wire [0b10100001#8, 0b00010100#8]) = .ok (.readVar 20#8) := by decide
theorem test_decode_getvar :
    decode (.request ⟨0b000#3, 0b10101011_00010100#16⟩) = .ok (.getvar 0xAB#8 20#8) := by decide
theorem test_decode_getspd : decode (.request ⟨0b001#3, 0xFFFF#16⟩) = .ok (.getspd 0xFFFF#16) := by
  decide
theorem test_decode_geterr : decode (.request ⟨0b010#3, 0x0000#16⟩) = .ok (.geterr 0x0000#16) := by
  decide
theorem test_decode_exitss : decode (.request ⟨0b011#3, 0xFFFF#16⟩) = .ok (.exitss 0xFFFF#16) := by
  decide
theorem test_decode_setspd : decode (.request ⟨0b100#3, 0xF380#16⟩) = .ok (.setspd 0xF380#16) := by
  decide

/-- R62, R61, R54, R64, R67: each refusal by its name. -/
theorem test_decode_refuses_selectors :
    decode (.request ⟨5#3, 0#16⟩) = .error (.reservedSelector 5#3) ∧
    decode (.request ⟨6#3, 0#16⟩) = .error (.reservedSelector 6#3) ∧
    decode (.request ⟨7#3, 0#16⟩) = .error (.reservedSelector 7#3) := by decide
theorem test_decode_refuses_bytes :
    decode (.wire [0x84#8]) = .error (.unknownOpcode 0x84#8) ∧
    decode (.wire [0x85#8, 0x20#8, 0x00#8]) = .error (.reservedBits 0x20#8 0x00#8) ∧
    decode (.wire [0x86#8, 0x00#8, 0x80#8]) = .error (.reservedBits 0x00#8 0x80#8) ∧
    decode (.wire [0x85#8, 0x00#8]) = .error .truncated ∧
    decode (.wire [0xA1#8]) = .error .truncated ∧
    decode (.wire []) = .error .truncated ∧
    decode (.wire [0x83#8, 0x83#8]) = .error .trailingBytes := by decide

/-- 95_test_vectors.md P3: the stray `A1` of a short write is read together with the next byte. -/
theorem test_stray_byte_misframes :
    parseStream [0xA1#8, 0x83#8] = .ok [.readVar 0x83#8] := by decide

/-! ### One step each: the vectors of 95_test_vectors.md -/

theorem test_geterr_S11b : outcome (.geterr 0#16) (idleWith [.ok 2] [.ok 2 [0x01#8, 0x00#8]]) =
    some (.done, false, 0x0001#16, [0xA1#8, 0x00#8],
      [.write [0xA1#8, 0x00#8], .read 2]) := by decide
theorem test_getspd_S12 : outcome (.getspd 0#16) (idleWith [.ok 2] [.ok 2 [0x40#8, 0x1F#8]]) =
    some (.done, false, 0x1F40#16, [0xA1#8, 0x14#8],
      [.write [0xA1#8, 0x14#8], .read 2]) ∧ portResult .getspd false 0x1F40#16 = .ok 8000 := by decide
theorem test_getspd_negative :
    outcome (.getspd 0#16) (idleWith [.ok 2] [.ok 2 [0x80#8, 0xF3#8]]) =
    some (.done, false, 0xF380#16, [0xA1#8, 0x14#8], [.write [0xA1#8, 0x14#8], .read 2]) ∧
    portResult .getspd false 0xF380#16 = .ok (-3200) := by decide
theorem test_setspd_S13 : outcome (.setspd 0xF380#16) (idleWith [.ok 3] []) =
    some (.done, false, 0#16, [0x86#8, 0x00#8, 0x64#8],
      [.write [0x86#8, 0x00#8, 0x64#8]]) := by decide
theorem test_setspd_short_write : failure (.setspd 100#16) (idleWith [.ok 2] []) =
    some (.done, true, [0x85#8, 0x04#8], [.write [0x85#8, 0x04#8, 0x03#8]]) := by decide
theorem test_exitss_S14a : outcome (.exitss 0xFFFF#16) (idleWith [.ok 1] []) =
    some (.done, false, 0#16, [0x83#8], [.write [0x83#8]]) := by decide
theorem test_exitss_S14b : failure (.exitss 0#16) (idleWith [.ok 0] []) =
    some (.done, true, [], [.write [0x83#8]]) := by decide
theorem test_getvar_255 : outcome (.getvar 0xAB#8 0xFF#8) (idleWith [.ok 2] [.ok 2 [0xFF#8, 0xFF#8]]) =
    some (.done, false, 0xFFFF#16, [0xA1#8, 0xFF#8], [.write [0xA1#8, 0xFF#8], .read 2]) ∧
    portResult .getvar false 0xFFFF#16 = .ok 65535 := by decide
theorem test_getvar_short_reply :
    failure (.getvar 0#8 20#8) (idleWith [.ok 2] [.ok 1 [0x80#8]]) =
    some (.done, true, [0xA1#8, 0x14#8], [.write [0xA1#8, 0x14#8], .read 2]) := by decide
theorem test_readVar_in_read : outcome (.readVar 20#8) (toRead .getspd 0#16 [.ok 2 [0x34#8, 0x12#8]]) =
    some (.done, false, 0x1234#16, [0xA1#8, 0x14#8], [.write [0xA1#8, 0x14#8], .read 2]) := by decide
theorem test_exitSafeStart : outcome .exitSafeStart (writing .exitss 0#16 [.ok 1] []) =
    some (.done, false, 0#16, [0x83#8], [.write [0x83#8]]) := by decide
theorem test_setSpeedFwd : outcome (.setSpeedFwd 4095) (latched .setspd 0x0FFF#16 [.ok 3] []) =
    some (.done, false, 0#16, [0x85#8, 0x1F#8, 0x7F#8], [.write [0x85#8, 0x1F#8, 0x7F#8]]) := by decide
theorem test_setSpeedRev : outcome (.setSpeedRev 33) (latched .setspd 0xFFDF#16 [.ok 3] []) =
    some (.done, false, 0#16, [0x86#8, 0x01#8, 0x01#8], [.write [0x86#8, 0x01#8, 0x01#8]]) := by decide

/-- 95_test_vectors.md 2.5, the corner rows. -/
theorem test_commands_2_5 :
    commandBytes .setspd 0#16 = [0x85#8, 0x00#8, 0x00#8] ∧
    commandBytes .setspd 0xFFFF#16 = [0x86#8, 0x01#8, 0x00#8] ∧
    commandBytes .setspd 0x0020#16 = [0x85#8, 0x00#8, 0x01#8] ∧
    commandBytes .setspd 0x0C7F#16 = [0x85#8, 0x1F#8, 0x63#8] ∧
    commandBytes .setspd 0xF001#16 = [0x86#8, 0x1F#8, 0x7F#8] ∧
    commandBytes .setspd 0xF000#16 = [0x86#8, 0x00#8, 0x00#8] ∧
    commandBytes .setspd 0x8001#16 = [0x86#8, 0x1F#8, 0x7F#8] := by decide

/-- 10_state.md R29 and D16: `85 04 03` on the port, first byte in bits 7:0. -/
theorem test_txData : txData (writing .setspd 100#16 [] []) = 0x030485#24 := by decide

/-- 30_encoding.md R65: a mnemonic with no operand where it needs one is no line. -/
theorem test_assemble : assemble "SETSPD" (some (-100)) = some ⟨4#3, 0xFF9C#16⟩ ∧
    assemble "GETVAR" none = none ∧ assemble "EXITSS" (some 0) = none := by decide

/-- A word placed after reset is what the next step runs. -/
theorem test_withFetchWord :
    step (State.reset.withFetchWord 24 0x04F380) = exec (.setspd 0xF380#16) State.reset := rfl

/-! ### Witnesses: concrete states and operands that meet the hypotheses of the statements -/

theorem witness_TableMasksSelectTheDecodedRow :
    decodeTableWord 8 0x83 = some .exitSafeStart ∧ decodeTableWord 16 0xA1FF = some (.readVar 0xFF#8) ∧
    decodeTableWord 19 0x04FFFF = some (.setspd 0xFFFF#16) ∧
    decodeTableWord 24 0x851F7F = some (.setSpeedFwd 4095) ∧
    (tableRow (.setSpeedRev 0)).selects 0x861F7F = true := by decide

theorem witness_DecodeOfEncodeIsIdentity :
    (Instr.setSpeedFwd 4095).wellFormed = true ∧ (Instr.readVar 0xFF#8).wellFormed = true := by decide

theorem witness_EncodeOfDecodeIsIdentity :
    decode (.wire [0x86#8, 0x1F#8, 0x7F#8]) = .ok (.setSpeedRev 4095) := by decide

theorem witness_StreamOfCommandsParsesUniquely :
    ∀ i ∈ [Instr.exitSafeStart, .setSpeedFwd 4095, .setSpeedRev 0, .readVar 0x83#8],
      i.isWire = true ∧ i.wellFormed = true := by decide

theorem witness_DataBytesCarryTheLowTwelveBits : (3200 : Nat) ≤ 3200 := by decide

theorem witness_SignedReadingIsTwosComplement :
    (32767#16).toNat ≤ 32767 ∧ 32768 ≤ (32768#16).toNat ∧ s16 65535#16 = s16 65535#16 ∧
    (-32768 : Int) ≤ -32768 ∧ (-32768 : Int) ≤ 32767 ∧ (32767 : Int) ≤ 32767 := by decide

theorem witness_ReplyAssemblyIsExactAndBijective :
    u16 0xFF#8 0x00#8 = 255#16 ∧ u16 0x07#8 0x07#8 = u16 0x07#8 0x07#8 := by decide

theorem witness_SignOfTheSpeedSelectsTheOpcode : 0 ≤ s16 0#16 ∧ s16 0xFFFF#16 < 0 := by decide

theorem witness_SpeedCommandsAreExactUpTo4095 :
    magnitude 0xF001#16 ≤ 4095 ∧ magnitude 0x0FFF#16 ≤ 4095 ∧ inContract 0xF380#16 = true ∧
    inContract 0x0C81#16 = false ∧
    commandBytes .setspd 0xF001#16 = commandBytes .setspd 0xF001#16 := by decide

theorem witness_LargeSpeedsAliasModulo4096 :
    (s16 4096#16 < 0 ↔ s16 0#16 < 0) ∧ magnitude 4096#16 % 4096 = magnitude 0#16 % 4096 := by decide

theorem witness_OppositeSpeedsDifferInTheOpcodeOnly : 1 ≤ s16 1#16 ∧ 1 ≤ s16 0x7FFF#16 := by decide

theorem witness_SpeedCommandReadsBack :
    s16 0xF000#16 < 0 ∧ magnitude 0xF000#16 % 4096 = 0 ∧
    decode (.wire (commandBytes .setspd 0xF000#16)) = .ok (.setSpeedRev 0) := by decide

theorem witness_IgnoredOperandBitsChangeNothing :
    run .getspd 0xFFFF#16 (some (.ok 2)) (some (.ok 2 [0x9C#8, 0xFF#8])) =
      (some (.ok (-100)), [.write [0xA1#8, 0x14#8], .read 2]) := by decide

theorem witness_RequestIsAcceptedOnlyInIdle :
    Op.ofSelector 4#3 = some .setspd ∧
    (State.withFetchWord State.reset 24 0x04FFFF).phase = .idle ∧
    (State.withFetchWord State.reset 24 0x04FFFF).requests = [⟨4#3, 0xFFFF#16⟩] ∧
    (writing .getspd 0#16 [] []).phase ≠ .idle ∧ (toRead .getspd 0#16 []).phase ≠ .idle ∧
    (ended .exitss 0#16 0#16 false).phase ≠ .idle ∧
    stateOf (step (writing .getspd 0#16 [] [])) = some (writing .getspd 0#16 [] []) := by decide

theorem witness_CallsAreIssuedWholeAndOnce :
    (latched .setspd 0#16 [] []).phase = .write ∧ (latched .setspd 0#16 [] []).outstanding = false ∧
    (toRead .geterr 0#16 []).phase = .read ∧ (toRead .geterr 0#16 []).outstanding = false ∧
    (writing .setspd 0#16 [] []).outstanding = true ∧ (writing .setspd 0#16 [] []).phase = .write ∧
    (reading2 .geterr 0#16 []).outstanding = true ∧ (reading2 .geterr 0#16 []).phase = .read := by
  decide

/-- All three clauses: a reading operation answered in full, a sending one answered in full, and the count
one below the command's length. -/
theorem witness_WriteAnswerDecidesTheOperation :
    (writing .getvar 0xFF#16 [.ok 2] []).phase = .write ∧
    (writing .getvar 0xFF#16 [.ok 2] []).outstanding = true ∧
    (writing .getvar 0xFF#16 [.ok 2] []).opQ = .getvar ∧
    (commandBytes .getvar 0xFF#16).length = 2 ∧
    (writing .setspd 0x8000#16 [.ok 3] []).opQ = .setspd ∧
    (commandBytes .setspd 0x8000#16).length = 3 ∧
    (writing .exitss 0#16 [.ok 0] []).txAnswers = [.ok 0] ∧
    WriteAnswer.ok 0 ≠ .ok (commandBytes .exitss 0#16).length := by decide

/-- A count below the length, the I/O error, and a count above it, on one and the same state. -/
theorem witness_FailedWriteLeavesAPrefixInTx :
    (writing .setspd 100#16 [.ok 2] []).phase = .write ∧
    (writing .setspd 100#16 [.ok 2] []).outstanding = true ∧
    (writing .setspd 100#16 [.ok 2] []).txAnswers = [.ok 2] ∧
    2 < (commandBytes .setspd 100#16).length ∧
    (writing .setspd 100#16 [.ioErr] []).txAnswers = [.ioErr] ∧
    (writing .setspd 100#16 [.ok 4] []).txAnswers = [.ok 4] ∧
    WriteAnswer.ok 4 ≠ .ok (commandBytes .setspd 100#16).length := by decide

theorem witness_ReadAnswerDecidesTheResult :
    (reading2 .getspd 0#16 [.ok 2 [0x00#8, 0x80#8]]).phase = .read ∧
    (reading2 .getspd 0#16 [.ok 2 [0x00#8, 0x80#8]]).outstanding = true ∧
    (reading2 .getspd 0#16 [.ok 2 [0x00#8, 0x80#8]]).rxAnswers = [.ok 2 [0x00#8, 0x80#8]] ∧
    (reading2 .getspd 0#16 [.ok 3 [0x00#8, 0x80#8]]).rxAnswers = [.ok 3 [0x00#8, 0x80#8]] ∧
    (∀ b0 b1, ReadAnswer.ok 3 [0x00#8, 0x80#8] ≠ .ok 2 [b0, b1]) := by
  refine ⟨by decide, by decide, by decide, by decide, fun b0 b1 h => ?_⟩
  injection h with h
  exact absurd h (by decide)

theorem witness_ReadsConsumeTheHeadOfRx :
    (reading2 .getvar 0#16 [.ok 1 [0x80#8]]).phase = .read ∧
    (reading2 .getvar 0#16 [.ok 1 [0x80#8]]).outstanding = true ∧
    (reading2 .getvar 0#16 [.ok 1 [0x80#8]]).rxAnswers = [.ok 1 [0x80#8]] ∧
    (reading2 .getvar 0#16 [.ioErr]).rxAnswers = [.ioErr] ∧
    (writing .getvar 0#16 [.ok 2] []).phase ≠ .read := by decide

theorem witness_UnansweredCallIsStuck :
    Unanswered (writing .exitss 0#16 [] []) ∧ Unanswered (reading2 .getspd 0#16 []) ∧
    (Event.arrive [0xFF#8]).isHostOrDevice = true :=
  ⟨⟨rfl, .inl ⟨rfl, rfl⟩⟩, ⟨rfl, .inr ⟨rfl, rfl⟩⟩, rfl⟩

theorem witness_ResultIsHeldUntilTaken :
    (ended .getspd 0#16 0xFF9C#16 true).phase = .done ∧ (ended .getspd 0#16 0xFF9C#16 true).resReady = true ∧
    (ended .getspd 0#16 0xFF9C#16 false).phase = .done ∧
    (ended .getspd 0#16 0xFF9C#16 false).resReady = false := by decide

theorem witness_ReservedSelectorIsRefused :
    ({ State.reset with requests := [⟨7#3, 0#16⟩] } : State).phase = .idle ∧
    (7#3 = 5#3 ∨ 7#3 = 6#3 ∨ 7#3 = 7#3) := by decide

theorem witness_ResetReachesNothingOutside :
    State.reset.phase = .idle ∧ (latched .exitss 0#16 [] []).phase = .write ∧
    (toRead .geterr 0#16 []).phase = .read ∧ (ended .exitss 0#16 0#16 true).phase = .done := by decide

theorem witness_StepRunsTheDecodedInstruction :
    ({ State.reset with requests := [⟨0#3, 0xAB14#16⟩] } : State).requests = [⟨0#3, 0xAB14#16⟩] ∧
    decode (.request ⟨0#3, 0xAB14#16⟩) = .ok (.getvar 0xAB#8 0x14#8) ∧
    (latched .setspd 0xF000#16 [] []).phase = .write ∧
    decode (.wire (commandBytes .setspd 0xF000#16)) = .ok (.setSpeedRev 0) ∧
    (toRead .getspd 0#16 []).phase = .read ∧ State.reset.requests = [] ∧
    (ended .exitss 0#16 0#16 true).phase = .done := by decide

theorem witness_PlacedWordIsRunNext :
    decodeTableWord 24 0x860000 = some (.setSpeedRev 0) ∧
    decodeTableWord 24 0x000000 = some (.getvar 0#8 0#8) := by decide

/-- `Run` returns, fails, and does not return. -/
theorem witness_SequencerAgreesWithRun :
    ({ idleWith [.ok 2] [.ok 2 [0x00#8, 0x80#8]] with requests := [⟨1#3, 0#16⟩] } : State).phase = .idle ∧
    Op.ofSelector 1#3 = some .getspd ∧
    (run .getspd 0#16 (some (.ok 2)) (some (.ok 2 [0x00#8, 0x80#8]))).1 = some (.ok (-32768)) ∧
    (run .getspd 0#16 (some (.ok 1)) none).1 = some .serialError ∧
    (run .getspd 0#16 (some (.ok 2)) none).1 = none ∧ (run .exitss 0#16 none none).1 = none ∧
    (latched .exitss 0#16 [] []).phase = .write ∧ (toRead .geterr 0#16 []).phase = .read := by decide

theorem witness_HostOperationIsRun :
    (idleWith [.ok 3] []).phase = .idle ∧
    (run .setspd 0x8000#16 (some (.ok 3)) none).1 = some (.ok 0) := by decide

/-- For GetvarReturnsTheReply, GetspdReturnsTheSignedReply and GeterrReturnsTheReply. -/
theorem witness_VariableReads :
    (idleWith [.ok 2] [.ok 2 [0xFF#8, 0xFF#8]]).phase = .idle ∧
    (idleWith [.ok 2] [.ok 2 [0xFF#8, 0xFF#8]]).txAnswers = .ok 2 :: [] ∧
    (idleWith [.ok 2] [.ok 2 [0xFF#8, 0xFF#8]]).rxAnswers = .ok 2 [0xFF#8, 0xFF#8] :: [] := by decide

theorem witness_ExitssSucceedsWhenItsByteIsSent :
    (idleWith [.ok 1] []).phase = .idle ∧ (idleWith [.ok 1] []).txAnswers = .ok 1 :: [] := by decide

theorem witness_SetspdSucceedsWhenItsBytesAreSent :
    (idleWith [.ok 3] []).phase = .idle ∧ (idleWith [.ok 3] []).txAnswers = .ok 3 :: [] := by decide

/-- READ_VAR with its call not out, with its call out, and in READ with its read out. -/
theorem witness_ReadVarCommandCompletes :
    (latched .getvar 0xFF#16 [.ok 2] [.ok 2 [0#8, 0#8]]).phase = .write ∧
    (latched .getvar 0xFF#16 [.ok 2] [.ok 2 [0#8, 0#8]]).outstanding = false ∧
    (writing .getvar 0xFF#16 [.ok 2] [.ok 2 [0#8, 0#8]]).phase = .write ∧
    (writing .getvar 0xFF#16 [.ok 2] [.ok 2 [0#8, 0#8]]).outstanding = true ∧
    (writing .getvar 0xFF#16 [.ok 2] [.ok 2 [0#8, 0#8]]).txAnswers = [.ok 2] ∧
    (reading2 .getvar 0xFF#16 [.ok 2 [0#8, 0#8]]).phase = .read ∧
    (reading2 .getvar 0xFF#16 [.ok 2 [0#8, 0#8]]).rxAnswers = [.ok 2 [0#8, 0#8]] := by decide

theorem witness_ExitSafeStartCommandCompletes :
    (latched .exitss 0#16 [.ok 1] []).phase = .write ∧
    (latched .exitss 0#16 [.ok 1] []).txAnswers = [.ok 1] := by decide

theorem witness_SetSpeedCommandsComplete :
    (latched .setspd 0#16 [.ok 3] []).phase = .write ∧
    (latched .setspd 0#16 [.ok 3] []).txAnswers = [.ok 3] := by decide

theorem witness_FailedWriteEndsTheOperation :
    (idleWith [.ok 4] []).phase = .idle ∧ (idleWith [.ok 4] []).txAnswers = [.ok 4] ∧
    WriteAnswer.ok 4 ≠ .ok (commandBytes .setspd 0#16).length ∧
    WriteAnswer.ioErr ≠ .ok (commandBytes .setspd 0#16).length := by decide

theorem witness_FailedReadEndsTheOperation :
    (idleWith [.ok 2] [.ok 1 [0x80#8]]).phase = .idle ∧ expectsReply .geterr = true ∧
    (idleWith [.ok 2] [.ok 1 [0x80#8]]).txAnswers = [.ok 2] ∧
    (idleWith [.ok 2] [.ok 1 [0x80#8]]).rxAnswers = [.ok 1 [0x80#8]] ∧
    (∀ b0 b1, ReadAnswer.ok 1 [0x80#8] ≠ .ok 2 [b0, b1]) := by
  refine ⟨by decide, by decide, by decide, by decide, fun b0 b1 h => ?_⟩
  injection h with h
  exact absurd h (by decide)

theorem witness_FailedAnswerEndsTheCommand :
    Instr.exitSafeStart.isWire = true ∧ (latched .exitss 0#16 [.ok 0] []).phase = .write ∧
    (latched .exitss 0#16 [.ok 0] []).txAnswers = [.ok 0] ∧
    WriteAnswer.ok 0 ≠ .ok (encode .exitSafeStart).bytes.length ∧
    (reading2 .getvar 0#16 [.ioErr]).phase = .read ∧
    (reading2 .getvar 0#16 [.ioErr]).rxAnswers = [.ioErr] ∧
    (latched .getvar 0#16 [.ok 2] [.ioErr]).phase = .write ∧
    (latched .getvar 0#16 [.ok 2] [.ioErr]).txAnswers = [.ok 2] ∧
    (∀ b0 b1, ReadAnswer.ioErr ≠ .ok 2 [b0, b1]) := by
  refine ⟨by decide, by decide, by decide, by decide, by decide, by decide, by decide, by decide,
    fun b0 b1 h => ?_⟩
  cases h

theorem witness_WireCommandsWaitOrStandStill :
    (latched .setspd 0#16 [] []).phase = .write ∧ (latched .setspd 0#16 [] []).txAnswers = [] ∧
    (toRead .getvar 0#16 []).phase = .read ∧ (toRead .getvar 0#16 []).rxAnswers = [] ∧
    State.reset.phase = .idle ∧ (ended .exitss 0#16 0#16 true).phase = .done ∧
    (Instr.setSpeedRev 0).isWire = true ∧ (∀ id, Instr.setSpeedRev 0 ≠ .readVar id) := by decide

/-- For GeterrAndGetspdSpecialiseGetvar, CallCountsPerOperation and ErrorExactlyOnTransportFailure: an
operation from IDLE that ends, and one that waits. -/
theorem witness_OperationsFromIdle :
    ((stateOf (exec (opInstr .getspd 0#16) (idleWith [.ok 2] [.ok 2 [0#8, 0#8]]))).map State.phase) =
      some .done ∧
    ((stateOf (exec (opInstr .getspd 0#16) (idleWith [.ok 2] []))).map State.phase) = some .read ∧
    (idleWith [.ok 2] []).phase = .idle := by decide

/-- Two idle states with different histories and the same answers. -/
theorem witness_OutcomeIgnoresHistory :
    idleWith [.ok 2] [.ok 2 [0#8, 0#8]] ≠
      { idleWith [.ok 2] [.ok 2 [0#8, 0#8]] with tx := [0xA1#8], rx := [0x01#8] } ∧
    (Instr.geterr 0#16).isWire = false := by decide

theorem witness_LatchedOperationIgnoresTheRequestPort :
    (writing .getspd 0#16 [] []).phase ≠ .idle ∧
    stateOf (step (writing .getspd 0#16 [] [])) = some (writing .getspd 0#16 [] []) := by decide

theorem witness_PortsShowTheStateOfTheOperation : SequencerInv (writing .setspd 0#16 [] []) :=
  ⟨by decide, by decide, by decide, by decide, by decide, by decide, by decide, by decide⟩

/-- RX holds a stray byte before the reply (95_test_vectors.md P4). -/
theorem witness_ReplyIsTheHeadOfRxUnchecked :
    FaithfulRead { idleWith [.ok 2] [.ok 2 [0xF3#8, 0#8]] with rx := [0xF3#8, 0#8, 0#8] }
      (.ok 2 [0xF3#8, 0#8]) := by
  intro k data h
  injection h with hk hd
  subst hk hd
  decide

theorem witness_FullWritesKeepTxWhole :
    TxHoldsCommands { idleWith [.ok 3] [] with tx := [0x83#8, 0xA1#8, 0x00#8] }
      [.exitSafeStart, .readVar 0#8] := rfl

theorem witness_SyntaxNamesTheOperation :
    (-32768 : Int) ≤ -32768 ∧ (32767 : Int) ≤ 32767 ∧ ((-1 : Int) < 0 ∨ 255 < (-1 : Int)) ∧
    ((32768 : Int) < -32768 ∨ 32767 < (32768 : Int)) := by decide

theorem witness_StepKeepsTheInvariant :
    SequencerInv (reading2 .getspd 0#16 [.ok 2 [0#8, 0x80#8]]) ∧
    (stateOf (step (reading2 .getspd 0#16 [.ok 2 [0#8, 0x80#8]]))).map State.resVal = some 0x8000#16 :=
  ⟨⟨by decide, by decide, by decide, by decide, by decide, by decide, by decide, by decide⟩, by decide⟩

theorem witness_RuleKeepsTheInvariant : SequencerInv (toRead .getspd 0#16 []) :=
  ⟨by decide, by decide, by decide, by decide, by decide, by decide, by decide, by decide⟩

theorem witness_EventKeepsTheInvariant :
    SequencerInv (latched .exitss 0#16 [] []) ∧
    (stateOf (applyEvent (.answerWrite (.ok 1)) (latched .exitss 0#16 [] []))).map State.txAnswers =
      some [.ok 1] :=
  ⟨⟨by decide, by decide, by decide, by decide, by decide, by decide, by decide, by decide⟩, by decide⟩

end Sys2Proof.Tests
end

section
/-! How a host operation runs from IDLE (spec/40_transaction.md R70 to R77): one equation for each place it
can stop, and from them its agreement with `run`, of which R10 (10_state.md) is a consequence. -/

namespace Sys2Proof.Machine

/-! ### Host instructions are operations -/

/-- The meaning of a host instruction is the operation its selector and operand name. -/
theorem exec_opInstr (op : Op) (arg : Half) (s : State) :
    exec (opInstr op arg) s = .next (operate op arg s) := by
  cases op with
  | getvar => simp only [opInstr, exec, execGetvar, hiByte_append_loByte]
  | getspd => rfl
  | geterr => rfl
  | exitss => rfl
  | setspd => rfl

/-- Every instruction that is no wire command is a host operation. -/
theorem exists_eq_opInstr {i : Instr} (h : i.isWire = false) : ∃ op arg, i = opInstr op arg := by
  cases i with
  | exitSafeStart => cases h
  | setSpeedFwd m => cases h
  | setSpeedRev m => cases h
  | readVar id => cases h
  | getvar ignored id => exact ⟨.getvar, ignored ++ id, by simp [opInstr]⟩
  | getspd ignored => exact ⟨.getspd, ignored, rfl⟩
  | geterr ignored => exact ⟨.geterr, ignored, rfl⟩
  | exitss ignored => exact ⟨.exitss, ignored, rfl⟩
  | setspd speed => exact ⟨.setspd, speed, rfl⟩

/-! ### Where an operation from IDLE can stop -/

/-- R71, R73: the operation is latched and its write call is out. -/
def State.writeOut (op : Op) (arg : Half) (s : State) : State :=
  (s.latch op arg).issue (.write (commandBytes op arg))

/-- R74, R75: the command went out in full, and the read call for its reply is out. -/
def State.readOut (op : Op) (arg : Half) (rest : List WriteAnswer) (s : State) : State :=
  (((s.writeOut op arg).transmit (commandBytes op arg) rest).enterRead).issue (.read 2)

section
variable {op : Op} {arg : Half} {s : State}

@[simp] theorem State.writeOut_phase : (s.writeOut op arg).phase = .write := rfl
@[simp] theorem State.writeOut_opQ : (s.writeOut op arg).opQ = op := rfl
@[simp] theorem State.writeOut_argQ : (s.writeOut op arg).argQ = arg := rfl
@[simp] theorem State.writeOut_outstanding : (s.writeOut op arg).outstanding = true := rfl
@[simp] theorem State.writeOut_calls :
    (s.writeOut op arg).calls = s.calls ++ [.write (commandBytes op arg)] := rfl
@[simp] theorem State.writeOut_txAnswers : (s.writeOut op arg).txAnswers = s.txAnswers := rfl
@[simp] theorem State.writeOut_rxAnswers : (s.writeOut op arg).rxAnswers = s.rxAnswers := rfl

variable {rest : List WriteAnswer}

@[simp] theorem State.readOut_phase : (s.readOut op arg rest).phase = .read := rfl
@[simp] theorem State.readOut_opQ : (s.readOut op arg rest).opQ = op := rfl
@[simp] theorem State.readOut_argQ : (s.readOut op arg rest).argQ = arg := rfl
@[simp] theorem State.readOut_outstanding : (s.readOut op arg rest).outstanding = true := rfl
@[simp] theorem State.readOut_calls :
    (s.readOut op arg rest).calls = s.calls ++ [.write (commandBytes op arg), .read 2] := by
  simp [readOut]
@[simp] theorem State.readOut_rxAnswers : (s.readOut op arg rest).rxAnswers = s.rxAnswers := rfl

end

/-- The rules of the read do nothing outside READ. -/
theorem read_rules_of_phase_ne_read {s : State} (h : s.phase ≠ .read) :
    readAnswer (readIssue s) = s := by
  simp [readIssue, readAnswer, h]

/-- R71 to R76 in order, for an operation with or without a reply: without one, the rules of the read do
nothing. -/
theorem operate_idle_eq_rules {s : State} (h : s.phase = .idle) (op : Op) (arg : Half) :
    operate op arg s =
      readAnswer (readIssue
        (writeAnswer (commandBytes op arg) (expectsReply op) (s.writeOut op arg))) := by
  have hissue : writeIssue (commandBytes op arg) (s.latch op arg) = s.writeOut op arg := by
    simp [writeIssue, State.writeOut]
  rw [operate_idle h, sendAndReceive, sendOnly, hissue]
  cases expectsReply op with
  | true => rfl
  | false =>
    have hphase : (writeAnswer (commandBytes op arg) false (s.writeOut op arg)).phase ≠ .read := by
      obtain ⟨-, heq⟩ | ⟨-, -, a, rest, -, -, heq⟩ | ⟨-, -, rest, -, heq⟩ :=
        writeAnswer_cases (commandBytes op arg) false (s.writeOut op arg) <;> simp [heq]
    simp [read_rules_of_phase_ne_read hphase]

section
variable {s : State} (h : s.phase = .idle) (op : Op) (arg : Half)
include h

/-- R77: no answer to the write; the operation waits in WRITE. -/
theorem operate_write_unanswered (ha : s.txAnswers = []) :
    operate op arg s = s.writeOut op arg := by
  rw [operate_idle_eq_rules h, show writeAnswer _ _ (s.writeOut op arg) = s.writeOut op arg by
    simp [writeAnswer, ha]]
  exact read_rules_of_phase_ne_read (by simp)

/-- R74: any answer to the write but the exact count ends the operation with the error. -/
theorem operate_write_failed {a : WriteAnswer} {rest : List WriteAnswer}
    (ha : s.txAnswers = a :: rest) (hne : a ≠ .ok (commandBytes op arg).length) :
    operate op arg s = (afterSent (commandBytes op arg) a rest (s.writeOut op arg)).postError := by
  obtain ⟨c, hc⟩ := judgeWrite_error hne
  rw [operate_idle_eq_rules h, show writeAnswer _ _ (s.writeOut op arg) =
      (afterSent (commandBytes op arg) a rest (s.writeOut op arg)).postError by
    simp [writeAnswer, ha, hc, afterSent, raiseSerialError]]
  exact read_rules_of_phase_ne_read (by simp)

/-- R74: an operation without a reply succeeds when its command went out in full. -/
theorem operate_sent {rest : List WriteAnswer} (hop : expectsReply op = false)
    (ha : s.txAnswers = .ok (commandBytes op arg).length :: rest) :
    operate op arg s =
      ((s.writeOut op arg).transmit (commandBytes op arg) rest).postOk Config.success := by
  rw [operate_idle_eq_rules h, hop, show writeAnswer _ false (s.writeOut op arg) =
      ((s.writeOut op arg).transmit (commandBytes op arg) rest).postOk Config.success by
    simp [writeAnswer, ha, judgeWrite_ok_iff.mpr, sentBytes_whole]]
  exact read_rules_of_phase_ne_read (by simp)

/-- R74, R75: an operation with a reply goes on to the answer of its read. -/
theorem operate_reply {rest : List WriteAnswer} (hop : expectsReply op = true)
    (ha : s.txAnswers = .ok (commandBytes op arg).length :: rest) :
    operate op arg s = readAnswer (s.readOut op arg rest) := by
  rw [operate_idle_eq_rules h, hop, show writeAnswer _ true (s.writeOut op arg) =
      ((s.writeOut op arg).transmit (commandBytes op arg) rest).enterRead by
    simp [writeAnswer, ha, judgeWrite_ok_iff.mpr, sentBytes_whole]]
  simp [readIssue, State.readOut, Config.replyLen]

end

/-! ### Agreement with `run` -/

section
variable (op : Op) (arg : Half) (r : Option ReadAnswer)

theorem run_write_unanswered : run op arg none r = (none, [.write (commandBytes op arg)]) := rfl

theorem run_write_failed {a : WriteAnswer} (hne : a ≠ .ok (commandBytes op arg).length) :
    run op arg (some a) r = (some .serialError, [.write (commandBytes op arg)]) := by
  obtain ⟨c, hc⟩ := judgeWrite_error hne
  simp [run, hc]

theorem run_sent (hop : expectsReply op = false) :
    run op arg (some (.ok (commandBytes op arg).length)) r =
      (some (.ok 0), [.write (commandBytes op arg)]) := by
  cases op with
  | exitss | setspd => simp [run, judgeWrite]
  | getvar | getspd | geterr => cases hop

theorem run_reply_unanswered (hop : expectsReply op = true) :
    run op arg (some (.ok (commandBytes op arg).length)) none =
      (none, [.write (commandBytes op arg), .read 2]) := by
  cases op with
  | getvar | getspd | geterr => simp [run, judgeWrite]
  | exitss | setspd => cases hop

theorem run_read_failed (hop : expectsReply op = true) {r : ReadAnswer}
    (hr : ∀ b0 b1, r ≠ .ok 2 [b0, b1]) :
    run op arg (some (.ok (commandBytes op arg).length)) (some r) =
      (some .serialError, [.write (commandBytes op arg), .read 2]) := by
  obtain ⟨c, hc⟩ := judgeRead_error hr
  cases op with
  | getvar | getspd | geterr => simp [run, judgeWrite, hc]
  | exitss | setspd => cases hop

theorem run_reply (hop : expectsReply op = true) (b0 b1 : Byte) :
    run op arg (some (.ok (commandBytes op arg).length)) (some (.ok 2 [b0, b1])) =
      (some (.ok (reading op (u16 b0 b1))), [.write (commandBytes op arg), .read 2]) := by
  have hj : judgeRead (.ok 2 [b0, b1]) = .ok (b0, b1) := judgeRead_ok_iff.mpr rfl
  cases op with
  | getvar | getspd | geterr => simp [run, judgeWrite, hj]
  | exitss | setspd => cases hop

end

/-- The phase an operation stops in: DONE if `Run` returned; if not, the phase of the call that has no
answer (R77). -/
def stopPhase (a : Option WriteAnswer) : Option Result → Phase
  | some _ => .done
  | none => if a.isSome then .read else .write

theorem eq_some_of_stopPhase_eq_done {a : Option WriteAnswer} {o : Option Result}
    (h : stopPhase a o = .done) : ∃ res, o = some res := by
  cases o with
  | some res => exact ⟨res, rfl⟩
  | none => cases a <;> cases h

@[simp] theorem reading_zero (op : Op) : reading op 0#16 = 0 := by
  cases op <;> rfl

/-- From `s`, `t` is where an outcome `o` of `Run(op, arg)` leaves SPED: the operation in hand and the calls
of `Run`, then either its result on the port or, if `Run` did not return, the call it waits for. -/
structure StopsAsRun (op : Op) (arg : Half) (s t : State) (o : Option Result × List Call) : Prop where
  opQ : t.opQ = op
  argQ : t.argQ = arg
  calls : MadeCalls s t o.2
  outstanding : t.outstanding = o.1.isNone
  phase : t.phase = stopPhase s.txAnswers.head? o.1
  result : ∀ res, o.1 = some res → portResult op t.resErr t.resVal = res
  unanswered : o.1 = none → Unanswered t

/-- R70: from IDLE the rules run a host operation to where `Run` on the next answers is. -/
theorem operate_stopsAsRun {s : State} (h : s.phase = .idle) (op : Op) (arg : Half) :
    StopsAsRun op arg s (operate op arg s) (run op arg s.txAnswers.head? s.rxAnswers.head?) := by
  cases ha : s.txAnswers with
  | nil =>
    rw [operate_write_unanswered h op arg ha, List.head?_nil, run_write_unanswered]
    constructor <;> simp [MadeCalls, stopPhase, Unanswered, ha]
  | cons a rest =>
    by_cases hk : a = .ok (commandBytes op arg).length
    · subst hk
      cases hop : expectsReply op with
      | false =>
        rw [operate_sent h op arg hop ha, List.head?_cons, run_sent op arg _ hop]
        constructor <;> simp [MadeCalls, stopPhase, portResult, Config.success]
      | true =>
        rw [operate_reply h op arg hop ha, List.head?_cons]
        obtain ⟨hno, heq⟩ | ⟨-, -, r, rs, hr, hbad, heq⟩ | ⟨-, -, b0, b1, rs, hr, heq⟩ :=
          readAnswer_cases (s.readOut op arg rest)
        · have hr : s.rxAnswers = [] := by simpa using hno
          rw [heq, hr, List.head?_nil, run_reply_unanswered op arg hop]
          constructor <;> simp [MadeCalls, stopPhase, Unanswered, ha, hr]
        · rw [State.readOut_rxAnswers] at hr
          rw [heq, hr, List.head?_cons, run_read_failed op arg hop hbad]
          constructor <;> simp [MadeCalls, stopPhase, portResult]
        · rw [State.readOut_rxAnswers] at hr
          rw [heq, hr, List.head?_cons, run_reply op arg hop]
          constructor <;> simp [MadeCalls, stopPhase, portResult]
    · rw [operate_write_failed h op arg ha hk, List.head?_cons, run_write_failed op arg _ hk]
      constructor <;> simp [MadeCalls, stopPhase, portResult, afterSent]

/-! ### R10: the outcome ignores what ran before -/

theorem reading_injective (op : Op) : Function.Injective (reading op) := by
  intro v w h
  cases op with
  | getspd => exact BitVec.eq_of_toInt_eq (by simpa [reading, s16_eq_toInt] using h)
  | getvar | geterr | exitss | setspd => exact BitVec.eq_of_toNat_eq (Int.ofNat_inj.mp h)

/-- A result fixes `res_err` and, without error, `res_val` (10_state.md R16). -/
theorem eq_of_portResult_eq {op : Op} {e e' : Bool} {v v' : Half}
    (h : portResult op e v = portResult op e' v') : e = e' ∧ (e = false → v = v') := by
  match e, e' with
  | true, true => exact ⟨rfl, nofun⟩
  | false, false => exact ⟨rfl, fun _ => reading_injective op (Result.ok.inj h)⟩
  | true, false | false, true => cases h

/-- Settles O50: both operations stop as `Run` does on the same operands and the same answers. -/
theorem outcomeIgnoresHistory : Obligations.OutcomeIgnoresHistory := by
  intro s s' t t' i hi hs hs' htx hrx ht ht'
  obtain ⟨op, arg, rfl⟩ := exists_eq_opInstr hi
  have hrun := operate_stopsAsRun hs op arg
  have hrun' := operate_stopsAsRun hs' op arg
  rw [← htx, ← hrx] at hrun'
  simp only [exec_opInstr, Host.Outcome.next.injEq] at ht ht'
  rw [ht] at hrun
  rw [ht'] at hrun'
  refine ⟨?_, ?_, ?_, ?_, ⟨_, hrun.calls, hrun'.calls⟩, fun hdone => ?_⟩
  · rw [hrun.phase, hrun'.phase, htx]
  · rw [hrun.outstanding, hrun'.outstanding]
  · rw [hrun.opQ, hrun'.opQ]
  · rw [hrun.argQ, hrun'.argQ]
  · obtain ⟨res, hres⟩ := eq_some_of_stopPhase_eq_done (hrun.phase.symm.trans hdone)
    exact eq_of_portResult_eq ((hrun.result res hres).trans (hrun'.result res hres).symm)

end Sys2Proof.Machine
end

section
/-! What the rules and the step do around a write that did not go out whole (spec/20_memory.md R37,
40_transaction.md R74, R78): the rule posts the error, and the step after it can only deliver. -/

namespace Sys2Proof.Machine

/-! ### The rule that takes a write answer -/

/-- R146: with its write call out, SPED's one rule is WRITE-ANSWER on the command in hand. -/
theorem tick_write_outstanding {s : State} (hp : s.phase = .write) (ho : s.outstanding = true) :
    tick s = writeAnswer (command s) (expectsReply s.opQ) s := by
  simp [tick, hp, ho]

/-- R74: any answer but the exact count uses the answer up, appends what was sent to TX and posts the
error, whether or not a reply was to follow. -/
theorem writeAnswer_failed {cmd : List Byte} {s : State} {a : WriteAnswer} {rest : List WriteAnswer}
    (hp : s.phase = .write) (ho : s.outstanding = true) (ha : s.txAnswers = a :: rest)
    (hne : a ≠ .ok cmd.length) (reply : Bool) :
    writeAnswer cmd reply s = (afterSent cmd a rest s).postError := by
  obtain ⟨c, hc⟩ := judgeWrite_error hne
  simp [writeAnswer, hp, ho, ha, hc, afterSent, raiseSerialError]

/-! ### The step after an operation has ended -/

/-- R78: in DONE the only step is DELIVER. -/
theorem step_done {s : State} (hp : s.phase = .done) : step s = .next (deliver s) := by
  simp [step, codeAt, hp]

@[simp] theorem deliver_tx (s : State) : (deliver s).tx = s.tx := by
  obtain ⟨-, -, heq⟩ | ⟨-, heq⟩ := deliver_cases s <;> simp [heq]

@[simp] theorem deliver_calls (s : State) : (deliver s).calls = s.calls := by
  obtain ⟨-, -, heq⟩ | ⟨-, heq⟩ := deliver_cases s <;> simp [heq]

/-- R78: the step of an operation that has ended sends nothing and makes no call. -/
theorem step_done_sends_nothing {s t : State} (hp : s.phase = .done) (ht : step s = .next t) :
    t.tx = s.tx ∧ t.calls = s.calls := by
  rw [step_done hp, Host.Outcome.next.injEq] at ht
  simp [← ht]

/-! ### R37: a failed write -/

/-- Settles O21: a failed write posts the error after the prefix it sent, and in DONE nothing is sent. -/
theorem failedWriteLeavesAPrefixInTx : Obligations.FailedWriteLeavesAPrefixInTx := by
  intro s a ta hp ho ha
  have hfail (hne : a ≠ .ok (command s).length) :
      tick s = (afterSent (command s) a ta s).postError :=
    (tick_write_outstanding hp ho).trans (writeAnswer_failed hp ho ha hne _)
  refine ⟨fun k hk hlt => ?_, fun hio => ?_, fun hne => ?_⟩
  · subst hk
    have hne : WriteAnswer.ok k ≠ .ok (command s).length :=
      fun heq => hlt.ne (WriteAnswer.ok.inj heq)
    simp [hfail hne, afterSent, sentBytes, command]
  · subst hio
    obtain ⟨k, hle, hsent⟩ := sentBytes_prefix (command s) s.draws .ioErr
    rw [hfail nofun]
    exact ⟨k, hle, congrArg (s.tx ++ ·) hsent, rfl⟩
  · have hdone : (tick s).phase = .done := by simp [hfail hne]
    exact ⟨hdone, fun t ht => step_done_sends_nothing hdone ht⟩

end Sys2Proof.Machine
end

section
/-! The encoding's own facts (spec/30_encoding.md): the two data bytes of a speed command (R57), the reserved
selectors (R62), and the host operations that are specialisations of GETVAR (R66). -/

namespace Sys2Proof.Machine

/-! ### R57: the data bytes -/

theorem lowField_eq_extract (m : Nat) :
    lowField m = ((BitVec.ofNat 12 m).extractLsb' 0 5).setWidth 8 := by
  apply BitVec.eq_of_toNat_eq
  simp only [lowField_toNat, BitVec.toNat_setWidth, BitVec.extractLsb'_toNat, BitVec.toNat_ofNat,
    Nat.shiftRight_zero]
  omega

theorem highField_eq_extract (m : Nat) :
    highField m = ((BitVec.ofNat 12 m).extractLsb' 5 7).setWidth 8 := by
  apply BitVec.eq_of_toNat_eq
  simp only [highField_toNat, BitVec.toNat_setWidth, BitVec.extractLsb'_toNat, BitVec.toNat_ofNat,
    Nat.shiftRight_eq_div_pow]
  omega

/-- The two fields are consecutive digits of the magnitude, so together they are its low twelve bits. -/
theorem lowField_add_highField (m : Nat) :
    (lowField m).toNat + 32 * (highField m).toNat = m % 4096 := by
  rw [lowField_toNat, highField_toNat]
  omega

/-- Settles O6: below 4096 the low twelve bits are all of the magnitude. -/
theorem dataBytesCarryTheLowTwelveBits : Obligations.DataBytesCarryTheLowTwelveBits := by
  intro m
  refine ⟨rfl, rfl, lowField_eq_extract m, highField_eq_extract m, lowField_mod m, highField_mod m,
    lowField_add_highField m, fun hle => ?_⟩
  rw [lowField_add_highField, Nat.mod_eq_of_lt (by omega)]

/-! ### R62: the reserved selectors -/

theorem decode_reserved {r : Request} (hr : Op.ofSelector r.op = none) :
    decode (.request r) = .error (.reservedSelector r.op) := by
  simp [decode, hr]

section
variable {s : State} {r : Request} {rest : List Request} (hp : s.phase = .idle)
  (hq : s.requests = r :: rest) (hr : Op.ofSelector r.op = none)
include hp hq hr

/-- R62: the step on a reserved selector only takes the offer off the port and marks it as refused. -/
theorem step_reserved : step s = .next (s.dropOffer.refuseOffer r) := by
  simp [step, codeAt, takeCode, rejectCode, hp, hq, decode_reserved hr]

theorem tick_reserved : tick s = s.dropOffer.refuseOffer r := by
  simp [tick, hp, hq, hr]

end

/-- Settles O26: the refusal reaches only the host's offers and the record of the refused ones. -/
theorem reservedSelectorIsRefused : Obligations.ReservedSelectorIsRefused := by
  intro s r rest hp hq hsel
  have hr : Op.ofSelector r.op = none := ofSelector_reserved hsel
  refine ⟨decode_reserved hr, _, step_reserved hp hq hr, tick_reserved hp hq hr, ?_⟩
  simp [sameRegisters, sameTransportSide, hp]

/-! ### R66: operations with one command

The rules look at the command and at whether a reply follows, never at the latched request itself; so two
operations with the same command run alike. -/

/-- The state with another request latched. -/
def State.withRequest (op : Op) (arg : Half) (s : State) : State := { s with opQ := op, argQ := arg }

section
variable (op : Op) (arg : Half) (s : State)

@[simp] theorem State.withRequest_phase : (s.withRequest op arg).phase = s.phase := rfl
@[simp] theorem State.withRequest_outstanding : (s.withRequest op arg).outstanding = s.outstanding := rfl
@[simp] theorem State.withRequest_txAnswers : (s.withRequest op arg).txAnswers = s.txAnswers := rfl
@[simp] theorem State.withRequest_rxAnswers : (s.withRequest op arg).rxAnswers = s.rxAnswers := rfl
@[simp] theorem State.withRequest_resErr : (s.withRequest op arg).resErr = s.resErr := rfl
@[simp] theorem State.withRequest_resVal : (s.withRequest op arg).resVal = s.resVal := rfl
@[simp] theorem State.withRequest_draws : (s.withRequest op arg).draws = s.draws := rfl

@[simp] theorem State.issue_withRequest (c : Call) :
    (s.withRequest op arg).issue c = (s.issue c).withRequest op arg := rfl
@[simp] theorem State.transmit_withRequest (sent : List Byte) (rest : List WriteAnswer) :
    (s.withRequest op arg).transmit sent rest = (s.transmit sent rest).withRequest op arg := rfl
@[simp] theorem State.enterRead_withRequest :
    (s.withRequest op arg).enterRead = s.enterRead.withRequest op arg := rfl
@[simp] theorem State.consume_withRequest (taken : Nat) (rest : List ReadAnswer) :
    (s.withRequest op arg).consume taken rest = (s.consume taken rest).withRequest op arg := rfl
@[simp] theorem State.setRsp_withRequest (p : Byte × Byte) :
    (s.withRequest op arg).setRsp p = (s.setRsp p).withRequest op arg := rfl
@[simp] theorem State.postOk_withRequest (v : Half) :
    (s.withRequest op arg).postOk v = (s.postOk v).withRequest op arg := rfl
@[simp] theorem raiseSerialError_withRequest (c : Cause) :
    raiseSerialError c (s.withRequest op arg) = (raiseSerialError c s).withRequest op arg := rfl

theorem writeAnswer_withRequest (cmd : List Byte) (reply : Bool) :
    writeAnswer cmd reply (s.withRequest op arg) = (writeAnswer cmd reply s).withRequest op arg := by
  by_cases hout : s.phase = .write ∧ s.outstanding = true
  · cases ha : s.txAnswers with
    | nil => simp [writeAnswer, ha]
    | cons a rest =>
      cases hj : judgeWrite cmd.length a with
      | error c => simp [writeAnswer, hout, ha, hj]
      | ok _ => cases reply <;> simp [writeAnswer, hout, ha, hj]
  · simp [writeAnswer, hout]

theorem readIssue_withRequest :
    readIssue (s.withRequest op arg) = (readIssue s).withRequest op arg := by
  by_cases hissue : s.phase = .read ∧ s.outstanding = false <;> simp [readIssue, hissue]

theorem readAnswer_withRequest :
    readAnswer (s.withRequest op arg) = (readAnswer s).withRequest op arg := by
  by_cases hout : s.phase = .read ∧ s.outstanding = true
  · cases ha : s.rxAnswers with
    | nil => simp [readAnswer, ha]
    | cons r rest =>
      cases hj : judgeRead r with
      | error c => simp [readAnswer, hout, ha, hj]
      | ok p => simp [readAnswer, hout, ha, hj]
  · simp [readAnswer, hout]

end

/-- From IDLE, two operations with the same command and the same answer to "is a reply read" reach the same
state but for the latched request. -/
theorem operate_of_same_command {s : State} (h : s.phase = .idle) {op op' : Op} {arg arg' : Half}
    (hcmd : commandBytes op arg = commandBytes op' arg') (hreply : expectsReply op = expectsReply op') :
    operate op arg s = (operate op' arg' s).withRequest op arg := by
  have hout : s.writeOut op arg = (s.writeOut op' arg').withRequest op arg := by
    rw [State.writeOut, hcmd]
    rfl
  rw [operate_idle_eq_rules h, operate_idle_eq_rules h, hcmd, hreply, hout, writeAnswer_withRequest,
    readIssue_withRequest, readAnswer_withRequest]

theorem commandBytes_geterr (x : Half) (y : Byte) :
    commandBytes .geterr x = commandBytes .getvar (y ++ 0#8) := by
  simp [commandBytes, Config.varErrorStatus]

theorem commandBytes_getspd (x : Half) (y : Byte) :
    commandBytes .getspd x = commandBytes .getvar (y ++ 20#8) := by
  simp [commandBytes, Config.varTargetSpeed]

/-- R101: the first byte of SETSPD's command depends on the sign of the speed only. -/
theorem head_commandBytes_setspd (x : Half) :
    (commandBytes .setspd x).head? = some (if s16 x < 0 then 0x86#8 else 0x85#8) := by
  by_cases hneg : s16 x < 0
  · simp [commandBytes, hneg, Config.opcSetSpeedRev]
  · simp [commandBytes, hneg, Config.opcSetSpeedFwd]

/-- Settles O47: GETERR and GETSPD send the command of GETVAR 0 and of GETVAR 20. -/
theorem geterrAndGetspdSpecialiseGetvar : Obligations.GeterrAndGetspdSpecialiseGetvar := by
  refine ⟨fun s x y h => ?_, fun s x y h => ?_, head_commandBytes_setspd⟩
  · have hsame := operate_of_same_command h (commandBytes_geterr x y) rfl
    exact ⟨_, _, rfl, rfl, hsame, by simp [hsame, portResult, reading]⟩
  · exact ⟨_, _, rfl, rfl, operate_of_same_command h (commandBytes_getspd x y) rfl,
      fun _ => ⟨rfl, rfl⟩⟩

end Sys2Proof.Machine
end

section
/-! What the host owns (spec/40_transaction.md R71, R80): between ACCEPT and DELIVER a rule neither reads nor
changes the offers, `res_ready` and the host's records. -/

namespace Sys2Proof.Machine

/-! ### Replacing the host's side of a state -/

/-- The state with everything the host owns taken from `h`. -/
def State.withHostOf (s h : State) : State :=
  { s with requests := h.requests, resReady := h.resReady, received := h.received,
           refusedOffers := h.refusedOffers }

/-- `f` reads nothing the host owns and carries it over as it is. -/
def IgnoresHost (f : State → State) : Prop := ∀ s h, f (s.withHostOf h) = (f s).withHostOf h

theorem IgnoresHost.comp {f g : State → State} (hf : IgnoresHost f) (hg : IgnoresHost g) :
    IgnoresHost (f ∘ g) := fun s h => by
  rw [Function.comp_apply, hg, hf, Function.comp_apply]

theorem sameHostSide_withHostOf (s t : State) : sameHostSide s (t.withHostOf s) := ⟨rfl, rfl, rfl, rfl⟩

/-- What `f` makes of a state is what it makes of it with its own host side put in again. -/
theorem IgnoresHost.sameHostSide {f : State → State} (hf : IgnoresHost f) (s : State) :
    sameHostSide s (f s) := by
  have hself : f s = (f s).withHostOf s := hf s s
  rw [hself]
  exact sameHostSide_withHostOf s (f s)

section
variable (s h : State)

@[simp] theorem State.withHostOf_phase : (s.withHostOf h).phase = s.phase := rfl
@[simp] theorem State.withHostOf_opQ : (s.withHostOf h).opQ = s.opQ := rfl
@[simp] theorem State.withHostOf_outstanding : (s.withHostOf h).outstanding = s.outstanding := rfl
@[simp] theorem State.withHostOf_txAnswers : (s.withHostOf h).txAnswers = s.txAnswers := rfl
@[simp] theorem State.withHostOf_rxAnswers : (s.withHostOf h).rxAnswers = s.rxAnswers := rfl
@[simp] theorem State.withHostOf_draws : (s.withHostOf h).draws = s.draws := rfl
@[simp] theorem command_withHostOf : command (s.withHostOf h) = command s := rfl

@[simp] theorem State.latch_withHostOf (op : Op) (arg : Half) :
    (s.withHostOf h).latch op arg = (s.latch op arg).withHostOf h := rfl
@[simp] theorem State.issue_withHostOf (c : Call) :
    (s.withHostOf h).issue c = (s.issue c).withHostOf h := rfl
@[simp] theorem State.transmit_withHostOf (sent : List Byte) (rest : List WriteAnswer) :
    (s.withHostOf h).transmit sent rest = (s.transmit sent rest).withHostOf h := rfl
@[simp] theorem State.enterRead_withHostOf :
    (s.withHostOf h).enterRead = s.enterRead.withHostOf h := rfl
@[simp] theorem State.consume_withHostOf (taken : Nat) (rest : List ReadAnswer) :
    (s.withHostOf h).consume taken rest = (s.consume taken rest).withHostOf h := rfl
@[simp] theorem State.setRsp_withHostOf (p : Byte × Byte) :
    (s.withHostOf h).setRsp p = (s.setRsp p).withHostOf h := rfl
@[simp] theorem State.postOk_withHostOf (v : Half) :
    (s.withHostOf h).postOk v = (s.postOk v).withHostOf h := rfl
@[simp] theorem raiseSerialError_withHostOf (c : Cause) :
    raiseSerialError c (s.withHostOf h) = (raiseSerialError c s).withHostOf h := rfl

end

/-! ### The rules of the transaction ignore the host -/

theorem ignoresHost_accept (op : Op) (arg : Half) : IgnoresHost (accept op arg) := by
  intro s h
  by_cases hp : s.phase = .idle <;> simp [accept, hp]

theorem ignoresHost_writeIssue (cmd : List Byte) : IgnoresHost (writeIssue cmd) := by
  intro s h
  by_cases hissue : s.phase = .write ∧ s.outstanding = false <;> simp [writeIssue, hissue]

theorem ignoresHost_writeAnswer (cmd : List Byte) (reply : Bool) :
    IgnoresHost (writeAnswer cmd reply) := by
  intro s h
  by_cases hout : s.phase = .write ∧ s.outstanding = true
  · cases ha : s.txAnswers with
    | nil => simp [writeAnswer, ha]
    | cons a rest =>
      cases hj : judgeWrite cmd.length a with
      | error c => simp [writeAnswer, hout, ha, hj]
      | ok _ => cases reply <;> simp [writeAnswer, hout, ha, hj]
  · simp [writeAnswer, hout]

theorem ignoresHost_readIssue : IgnoresHost readIssue := by
  intro s h
  by_cases hissue : s.phase = .read ∧ s.outstanding = false <;> simp [readIssue, hissue]

theorem ignoresHost_readAnswer : IgnoresHost readAnswer := by
  intro s h
  by_cases hout : s.phase = .read ∧ s.outstanding = true
  · cases ha : s.rxAnswers with
    | nil => simp [readAnswer, ha]
    | cons r rest => cases hj : judgeRead r <;> simp [readAnswer, hout, ha, hj]
  · simp [readAnswer, hout]

theorem ignoresHost_sendOnly (cmd : List Byte) : IgnoresHost (sendOnly cmd) :=
  (ignoresHost_writeAnswer cmd false).comp (ignoresHost_writeIssue cmd)

theorem ignoresHost_sendAndReceive (cmd : List Byte) : IgnoresHost (sendAndReceive cmd) :=
  ignoresHost_readAnswer.comp (ignoresHost_readIssue.comp
    ((ignoresHost_writeAnswer cmd true).comp (ignoresHost_writeIssue cmd)))

theorem ignoresHost_operate (op : Op) (arg : Half) : IgnoresHost (operate op arg) := by
  intro s h
  by_cases hp : s.phase = .idle
  · rw [operate_idle hp, operate_idle (show (s.withHostOf h).phase = .idle from hp),
      State.latch_withHostOf, ignoresHost_sendAndReceive, ignoresHost_sendOnly]
    exact (apply_ite (State.withHostOf · h) _ _ _).symm
  · rw [operate_busy hp, operate_busy (show (s.withHostOf h).phase ≠ .idle from hp)]

/-- An instruction reaches nothing the host owns: taking the offer and the result are `step`'s. -/
theorem exec_sameHostSide {i : Instr} {s t : State} (ht : exec i s = .next t) : sameHostSide s t := by
  cases i with
  | exitSafeStart | setSpeedFwd | setSpeedRev =>
    cases ht
    exact (ignoresHost_sendOnly _).sameHostSide s
  | readVar =>
    cases ht
    exact (ignoresHost_sendAndReceive _).sameHostSide s
  | getvar | getspd | geterr | exitss | setspd =>
    cases ht
    exact (ignoresHost_operate _ _).sameHostSide s

/-- R80: between ACCEPT and DELIVER the one enabled rule commutes with any change of the host's side. -/
theorem tick_withHostOf {s : State} (hp : s.phase = .write ∨ s.phase = .read) (h : State) :
    tick (s.withHostOf h) = (tick s).withHostOf h := by
  obtain hp | hp := hp <;> cases ho : s.outstanding
  · simpa [tick, hp, ho] using ignoresHost_writeIssue (command s) s h
  · simpa [tick, hp, ho] using ignoresHost_writeAnswer (command s) (expectsReply s.opQ) s h
  · simpa [tick, hp, ho] using ignoresHost_readIssue s h
  · simpa [tick, hp, ho] using ignoresHost_readAnswer s h

theorem tick_sameHostSide {s : State} (hp : s.phase = .write ∨ s.phase = .read) :
    sameHostSide s (tick s) := by
  have hself : tick s = (tick s).withHostOf s := tick_withHostOf hp s
  rw [hself]
  exact sameHostSide_withHostOf s (tick s)

end Sys2Proof.Machine
end

section
/-! The rules of the transaction one by one (spec/40_transaction.md R78, R71, R74, R76): what `tick` makes of
the states each rule is for. -/

namespace Sys2Proof.Machine

/-! ### R78: DELIVER -/

theorem tick_done {s : State} (hp : s.phase = .done) : tick s = deliver s := by
  simp [tick, hp]

@[simp] theorem deliver_requests (s : State) : (deliver s).requests = s.requests := by
  obtain ⟨-, -, heq⟩ | ⟨-, heq⟩ := deliver_cases s <;> simp [heq]

theorem deliver_ready {s : State} (hp : s.phase = .done) (hr : s.resReady = true) :
    deliver s = s.handOver := by
  simp [deliver, hp, hr]

theorem deliver_not_ready {s : State} (hr : s.resReady = false) : deliver s = s := by
  simp [deliver, hr]

/-- Settles O25: in DONE both the step and the rule are DELIVER, which waits for the host. -/
theorem resultIsHeldUntilTaken : Obligations.ResultIsHeldUntilTaken := by
  refine ⟨fun s hp hr => ?_, fun s hp hr => ?_⟩
  · rw [step_done hp, tick_done hp, deliver_ready hp hr]
    exact ⟨_, rfl, rfl, by simp [sameTransportSide]⟩
  · rw [step_done hp, tick_done hp, deliver_not_ready hr]
    exact ⟨rfl, rfl⟩

/-! ### R71: ACCEPT -/

theorem write_or_read_or_done {p : Phase} (hp : p ≠ .idle) : (p = .write ∨ p = .read) ∨ p = .done := by
  cases p with
  | idle => exact absurd rfl hp
  | write => exact .inl (.inl rfl)
  | read => exact .inl (.inr rfl)
  | done => exact .inr rfl

theorem tick_accept {s : State} {r : Request} {rest : List Request} {op : Op} (hp : s.phase = .idle)
    (hq : s.requests = r :: rest) (hop : Op.ofSelector r.op = some op) :
    tick s = s.dropOffer.latch op r.arg := by
  have hdrop : s.dropOffer.phase = .idle := hp
  simp [tick, hp, hq, hop, accept_idle hdrop]

/-- In WRITE and READ a step that has a next state runs an instruction; it takes no offer first. -/
theorem exists_exec_of_step_busy {s t : State} (hp : s.phase = .write ∨ s.phase = .read)
    (ht : step s = .next t) : ∃ i, exec i s = .next t := by
  have hcode : codeAt s = some (.wire (command s)) := by
    obtain hp | hp := hp <;> simp [codeAt, hp]
  have htake : takeCode s = s := by
    obtain hp | hp := hp <;> simp [takeCode, hp]
  cases hd : decode (.wire (command s)) with
  | ok i => exact ⟨i, by simpa [step, hcode, htake, hd] using ht⟩
  | error e => simp [step, hcode, hd, rejectCode] at ht

theorem tick_requests_of_busy {s : State} (hp : s.phase ≠ .idle) : (tick s).requests = s.requests := by
  obtain hbusy | hdone := write_or_read_or_done hp
  · obtain ⟨hreq, -⟩ := tick_sameHostSide hbusy
    exact hreq
  · rw [tick_done hdone, deliver_requests]

theorem step_requests_of_busy {s t : State} (hp : s.phase ≠ .idle) (ht : step s = .next t) :
    t.requests = s.requests := by
  obtain hbusy | hdone := write_or_read_or_done hp
  · obtain ⟨i, hi⟩ := exists_exec_of_step_busy hbusy ht
    obtain ⟨hreq, -⟩ := exec_sameHostSide hi
    exact hreq
  · rw [step_done hdone, Host.Outcome.next.injEq] at ht
    rw [← ht, deliver_requests]

/-- Settles O18: ACCEPT is a latch after the offer left the port, and no rule, step or host operation of a busy
SPED touches the offers. -/
theorem requestIsAcceptedOnlyInIdle : Obligations.RequestIsAcceptedOnlyInIdle := by
  refine ⟨fun s r rest op hp hq hop => ?_, fun s => tick_requests_of_busy,
    fun s t => step_requests_of_busy, fun s op arg hp => ?_⟩
  · rw [tick_accept hp hq hop]
    simp [sameTransportSide, hq]
  · rw [exec_opInstr, operate_busy hp]

/-! ### R74: WRITE-ANSWER -/

/-- R74: the exact count uses the answer up and puts the whole command into TX. -/
theorem writeAnswer_whole {cmd : List Byte} {s : State} {rest : List WriteAnswer}
    (hp : s.phase = .write) (ho : s.outstanding = true) (ha : s.txAnswers = .ok cmd.length :: rest)
    (reply : Bool) :
    writeAnswer cmd reply s =
      if reply then (s.transmit cmd rest).enterRead else (s.transmit cmd rest).postOk Config.success := by
  simp [writeAnswer, hp, ho, ha, judgeWrite_ok_iff.mpr, sentBytes_whole]

theorem expectsReply_eq_true {op : Op} (h : op = .getvar ∨ op = .getspd ∨ op = .geterr) :
    expectsReply op = true := by
  obtain rfl | rfl | rfl := h <;> rfl

theorem expectsReply_eq_false {op : Op} (h : op = .exitss ∨ op = .setspd) : expectsReply op = false := by
  obtain rfl | rfl := h <;> rfl

/-- Settles O20: the exact count goes on as the operation expects a reply or not, any other answer is the
error. -/
theorem writeAnswerDecidesTheOperation : Obligations.WriteAnswerDecidesTheOperation := by
  intro s a ta hp ho ha
  rw [tick_write_outstanding hp ho, command]
  refine ⟨fun hk hop => ?_, fun hk hop => ?_, fun hne => ?_⟩
  · subst hk
    rw [writeAnswer_whole hp ho ha, expectsReply_eq_true hop]
    rfl
  · subst hk
    rw [writeAnswer_whole hp ho ha, expectsReply_eq_false hop]
    rfl
  · rw [writeAnswer_failed hp ho ha hne]
    simp [afterSent, sameHostSide]

/-! ### R76: READ-ANSWER -/

section
variable {s : State} (hp : s.phase = .read) (ho : s.outstanding = true)
include hp ho

theorem tick_read_outstanding : tick s = readAnswer s := by
  simp [tick, hp, ho]

theorem readAnswer_reply {b0 b1 : Byte} {rest : List ReadAnswer}
    (ha : s.rxAnswers = .ok 2 [b0, b1] :: rest) :
    readAnswer s = ((s.consume 2 rest).setRsp (b0, b1)).postOk (u16 b0 b1) := by
  have hj : judgeRead (.ok 2 [b0, b1]) = .ok (b0, b1) := judgeRead_ok_iff.mpr rfl
  simp [readAnswer, hp, ho, ha, hj, takenCount]

theorem readAnswer_failed {r : ReadAnswer} {rest : List ReadAnswer} (ha : s.rxAnswers = r :: rest)
    (hr : ∀ b0 b1, r ≠ .ok 2 [b0, b1]) :
    readAnswer s =
      ((s.consume (takenCount s.draws r) rest).setRsp (Config.freeRsp s.draws)).postError := by
  obtain ⟨c, hc⟩ := judgeRead_error hr
  simp [readAnswer, hp, ho, ha, hc, raiseSerialError]

end

/-- Settles O22: two bytes are posted as they came, any other answer is the error after its count left RX. -/
theorem readAnswerDecidesTheResult : Obligations.ReadAnswerDecidesTheResult := by
  intro s r ra hp ho ha
  rw [tick_read_outstanding hp ho]
  refine ⟨fun b0 b1 hr => ?_, fun hr => ?_⟩
  · subst hr
    rw [readAnswer_reply hp ho ha]
    rfl
  · rw [readAnswer_failed hp ho ha hr]
    simp +contextual [sameHostSide, takenCount]

end Sys2Proof.Machine
end

section
/-! The sequencer and `Run` (spec/40_transaction.md R80): the rules from ACCEPT on reach where `operate` stops,
and a delivery is never undone, so nothing was handed over on the way there. -/

namespace Sys2Proof.Machine

/-! ### Rules in a row -/

/-- From `s` at most `k` rules lead to `t`. -/
def WithinRules (k : Nat) (s t : State) : Prop := ∃ n ≤ k, ticks n s = t

theorem WithinRules.trans {j k : Nat} {s t u : State} (hst : WithinRules j s t)
    (htu : WithinRules k t u) : WithinRules (j + k) s u := by
  obtain ⟨m, hm, rfl⟩ := hst
  obtain ⟨n, hn, rfl⟩ := htu
  exact ⟨m + n, Nat.add_le_add hm hn, ticks_add m n s⟩

theorem WithinRules.of_eq {k : Nat} {s t : State} (h : t = s) : WithinRules k s t :=
  ⟨0, Nat.zero_le k, h.symm⟩

theorem WithinRules.one {s t : State} (h : tick s = t) : WithinRules 1 s t := ⟨1, le_refl 1, h⟩

/-- WRITE-ISSUE of the command in hand is one rule, or does nothing. -/
theorem withinRules_writeIssue (s : State) : WithinRules 1 s (writeIssue (command s) s) := by
  obtain ⟨hp, ho, -⟩ | ⟨-, heq⟩ := writeIssue_cases (command s) s
  · exact .one (by simp [tick, hp, ho])
  · exact .of_eq heq

theorem withinRules_writeAnswer (s : State) :
    WithinRules 1 s (writeAnswer (command s) (expectsReply s.opQ) s) := by
  obtain ⟨-, heq⟩ | ⟨hp, ho, -⟩ | ⟨hp, ho, -⟩ :=
    writeAnswer_cases (command s) (expectsReply s.opQ) s
  · exact .of_eq heq
  · exact .one (tick_write_outstanding hp ho)
  · exact .one (tick_write_outstanding hp ho)

theorem withinRules_readIssue (s : State) : WithinRules 1 s (readIssue s) := by
  obtain ⟨hp, ho, -⟩ | ⟨-, heq⟩ := readIssue_cases s
  · exact .one (by simp [tick, hp, ho])
  · exact .of_eq heq

theorem withinRules_readAnswer (s : State) : WithinRules 1 s (readAnswer s) := by
  obtain ⟨-, heq⟩ | ⟨hp, ho, -⟩ | ⟨hp, ho, -⟩ := readAnswer_cases s
  · exact .of_eq heq
  · exact .one (tick_read_outstanding hp ho)
  · exact .one (tick_read_outstanding hp ho)

/-- R70, R71 to R76: from IDLE the rules run the operation at the head of the offers as `operate` does. -/
theorem withinRules_operate {s : State} {r : Request} {rest : List Request} {op : Op}
    (hp : s.phase = .idle) (hq : s.requests = r :: rest) (hop : Op.ofSelector r.op = some op) :
    WithinRules 5 s (operate op r.arg s.dropOffer) := by
  have hdrop : s.dropOffer.phase = .idle := hp
  have haccept : WithinRules 1 s (s.dropOffer.latch op r.arg) := .one (tick_accept hp hq hop)
  have hissue : WithinRules 1 (s.dropOffer.latch op r.arg) (s.dropOffer.writeOut op r.arg) :=
    withinRules_writeIssue _
  rw [operate_idle_eq_rules hdrop]
  exact (((haccept.trans hissue).trans (withinRules_writeAnswer _)).trans
    (withinRules_readIssue _)).trans (withinRules_readAnswer _)

/-! ### Rules that change nothing -/

theorem ticks_of_tick_eq_self {s : State} (h : tick s = s) (n : Nat) : ticks n s = s := by
  induction n with
  | zero => rfl
  | succ n ih => rw [ticks_succ, h, ih]

theorem Unanswered.phase {s : State} (h : Unanswered s) : s.phase = .write ∨ s.phase = .read := by
  obtain ⟨-, ⟨hp, -⟩ | ⟨hp, -⟩⟩ := h
  · exact .inl hp
  · exact .inr hp

/-- R77: no rule is enabled while a call waits for its answer. -/
theorem Unanswered.tick {s : State} (h : Unanswered s) : tick s = s := by
  obtain ⟨ho, ⟨hp, ha⟩ | ⟨hp, ha⟩⟩ := h
  · rw [tick_write_outstanding hp ho]
    simp [writeAnswer, ha]
  · rw [tick_read_outstanding hp ho]
    simp [readAnswer, ha]

/-! ### Deliveries are never undone -/

theorem tick_received_prefix (s : State) : s.received <+: (tick s).received := by
  cases hp : s.phase with
  | idle =>
    cases hq : s.requests with
    | nil => simp [tick, hp, hq]
    | cons r rest =>
      cases hop : Op.ofSelector r.op with
      | none => simp [tick_reserved hp hq hop]
      | some op => simp [tick_accept hp hq hop]
  | write | read =>
    obtain ⟨-, -, hrec, -⟩ := tick_sameHostSide (s := s) (by simp [hp])
    rw [hrec]
  | done =>
    rw [tick_done hp]
    obtain ⟨-, -, heq⟩ | ⟨-, heq⟩ := deliver_cases s <;> simp [heq]

theorem ticks_received_prefix (n : Nat) (s : State) : s.received <+: (ticks n s).received := by
  induction n generalizing s with
  | zero => exact List.prefix_refl _
  | succ n ih => exact (tick_received_prefix s).trans (ih (tick s))

/-- What has not been handed over after `n` rules had not been handed over before. -/
theorem ticks_received_eq_of_le {m n : Nat} {s : State} (hle : m ≤ n)
    (hn : (ticks n s).received = s.received) : (ticks m s).received = s.received := by
  have hmn : (ticks m s).received <+: (ticks n s).received := by
    rw [← Nat.add_sub_of_le hle, ticks_add]
    exact ticks_received_prefix _ _
  rw [hn] at hmn
  exact (hmn.eq_of_length_le (ticks_received_prefix m s).length_le)

/-- R78: DONE is left only by handing the result over. -/
theorem ticks_phase_of_done {s : State} (hp : s.phase = .done) {n : Nat}
    (hn : (ticks n s).received = s.received) : (ticks n s).phase = .done := by
  obtain ⟨-, -, heq⟩ | ⟨-, heq⟩ := deliver_cases s
  · cases n with
    | zero => exact hp
    | succ n =>
      have hlonger : s.handOver.received <+: (ticks n s.handOver).received :=
        ticks_received_prefix n _
      rw [ticks_succ, tick_done hp, heq] at hn
      rw [hn] at hlonger
      exact absurd hlonger.length_le (by simp)
  · rwa [ticks_of_tick_eq_self ((tick_done hp).trans heq)]

/-- R77: a run that got stuck on a call with nothing handed over is never in DONE and never hands anything
over. -/
theorem never_done_of_stuck {s : State} {n : Nat} (hstuck : Unanswered (ticks n s))
    (hn : (ticks n s).received = s.received) (m : Nat) :
    (ticks m s).received = s.received ∧ (ticks m s).phase ≠ .done := by
  have hlater : ticks (n + m) s = ticks n s := by
    rw [ticks_add, ticks_of_tick_eq_self hstuck.tick]
  have hm : (ticks m s).received = s.received :=
    ticks_received_eq_of_le (Nat.le_add_left m n) (by rw [hlater, hn])
  refine ⟨hm, fun hdone => ?_⟩
  have hend : ticks n (ticks m s) = ticks n s := by rw [← ticks_add, Nat.add_comm, hlater]
  have hstill : (ticks n s).phase = .done := by
    rw [← hend]
    exact ticks_phase_of_done hdone (by rw [hend, hn, hm])
  obtain hp | hp := hstuck.phase <;> simp [hp] at hstill

/-! ### R80 -/

/-- R80: between ACCEPT and DELIVER no rule depends on the request port or on `res_ready`. -/
theorem tick_with_port {u : State} (hp : u.phase = .write ∨ u.phase = .read) (offers : List Request)
    (b : Bool) :
    tick { u with requests := offers, resReady := b } =
      { tick u with requests := offers, resReady := b } := by
  obtain ⟨-, -, hrec, href⟩ := tick_sameHostSide hp
  have hcomm := tick_withHostOf hp { u with requests := offers, resReady := b }
  rw [State.withHostOf, State.withHostOf] at hcomm
  simpa only [hrec, href] using hcomm

/-- R80: from IDLE the rules stop where `operate` does, which is where `Run` is, with the host's side as ACCEPT
left it. -/
theorem exists_ticks_stopsAsRun {s : State} {r : Request} {rest : List Request} {op : Op}
    (hp : s.phase = .idle) (hq : s.requests = r :: rest) (hop : Op.ofSelector r.op = some op) :
    ∃ n, StopsAsRun op r.arg s.dropOffer (ticks n s)
        (run op r.arg s.txAnswers.head? s.rxAnswers.head?) ∧
      sameHostSide s.dropOffer (ticks n s) := by
  obtain ⟨n, -, hn⟩ := withinRules_operate hp hq hop
  refine ⟨n, ?_⟩
  rw [hn]
  exact ⟨operate_stopsAsRun (s := s.dropOffer) hp op r.arg,
    (ignoresHost_operate op r.arg).sameHostSide s.dropOffer⟩

/-- Settles O33: the rules stop as `Run` does; with a result only DELIVER is left, without one no rule is. -/
theorem sequencerAgreesWithRun : Obligations.SequencerAgreesWithRun := by
  refine ⟨fun u offers b hp => tick_with_port hp offers b, fun s r rest op hp hq hop => ?_⟩
  obtain ⟨n, hrun, -, hready, hrec, -⟩ := exists_ticks_stopsAsRun hp hq hop
  refine ⟨fun res hres => ?_, fun hnone => ?_⟩
  · have hdone : (ticks n s).phase = .done := by rw [hrun.phase, hres, stopPhase]
    have hresult := hrun.result res hres
    refine ⟨n, hdone, hrun.calls, hresult, fun m hm => ticks_received_eq_of_le hm.le hrec,
      fun hr => ?_⟩
    have hdeliver : ticks (n + 1) s = (ticks n s).handOver := by
      rw [ticks_add]
      exact (tick_done hdone).trans (deliver_ready hdone (hready.trans hr))
    rw [hdeliver]
    exact ⟨⟨(ticks n s).resErr, (ticks n s).resVal⟩, by simp [hrec], hresult, rfl⟩
  · have hstuck := hrun.unanswered hnone
    exact ⟨never_done_of_stuck hstuck hrec, n, hstuck, hrun.calls⟩

end Sys2Proof.Machine
end

section
/-! The two readings of a reply (spec/41_variable_read.md): the unsigned assembly `u16` is concatenation with the
first byte low (R89), and the signed reading `s16` is `BitVec.toInt` (R88). -/

namespace Sys2Proof.Machine

/-! ### R89: the unsigned assembly -/

theorem u16_toNat (b0 b1 : Byte) : (u16 b0 b1).toNat = b0.toNat + 256 * b1.toNat := by
  rw [u16_eq_append, append_toNat]
  omega

@[simp] theorem loByte_u16 (b0 b1 : Byte) : loByte (u16 b0 b1) = b0 := by
  rw [u16_eq_append, loByte_append]

@[simp] theorem hiByte_u16 (b0 b1 : Byte) : hiByte (u16 b0 b1) = b1 := by
  rw [u16_eq_append, hiByte_append]

@[simp] theorem u16_loByte_hiByte (v : Half) : u16 (loByte v) (hiByte v) = v := by
  rw [u16_eq_append, hiByte_append_loByte]

/-- Settles O7: the bytes of a value are its `loByte` and `hiByte`, and no other pair assembles to it. -/
theorem replyAssemblyIsExactAndBijective : Obligations.ReplyAssemblyIsExactAndBijective := by
  refine ⟨u16_toNat, fun v => ⟨(loByte v, hiByte v), u16_loByte_hiByte v, ?_⟩, fun b0 b1 hswap => ?_,
    by decide, by decide⟩
  · rintro ⟨b0, b1⟩ rfl
    rw [loByte_u16, hiByte_u16]
  · have hhigh : hiByte (u16 b1 b0) = hiByte (u16 b0 b1) := congrArg hiByte hswap
    rwa [hiByte_u16, hiByte_u16] at hhigh

/-! ### R88: the signed reading -/

theorem s16_of_le {u : Half} (h : u.toNat ≤ 32767) : s16 u = u.toNat := if_pos h

theorem s16_of_ge {u : Half} (h : 32768 ≤ u.toNat) : s16 u = (u.toNat : Int) - 65536 :=
  if_neg (by omega)

theorem s16_range (u : Half) : -32768 ≤ s16 u ∧ s16 u ≤ 32767 := by
  rw [s16_eq_toInt]
  exact ⟨BitVec.le_toInt u, Int.le_of_lt_add_one BitVec.toInt_lt⟩

theorem s16_congruent (u : Half) : (s16 u - u.toNat) % 65536 = 0 := by
  obtain h | h := Nat.lt_or_ge u.toNat 32768
  · rw [s16_of_le (Nat.le_of_lt_succ h), Int.sub_self, Int.zero_emod]
  · rw [s16_of_ge h]
    omega

theorem s16_injective : Function.Injective s16 := reading_injective .getspd

theorem s16_ofInt {v : Int} (hlo : -32768 ≤ v) (hhi : v ≤ 32767) : s16 (BitVec.ofInt 16 v) = v := by
  rw [s16_eq_toInt]
  exact BitVec.toInt_ofInt_eq_self (by decide) hlo (Int.lt_add_one_of_le hhi)

theorem toNat_ofInt_half (v : Int) : ((BitVec.ofInt 16 v).toNat : Int) = v % 65536 := by
  rw [BitVec.toNat_ofInt]
  exact Int.toNat_of_nonneg (Int.emod_nonneg v (by decide))

/-- Settles O8: `s16` is `BitVec.toInt`, and the 16-bit pattern of `v` is the one value read as `v`. -/
theorem signedReadingIsTwosComplement : Obligations.SignedReadingIsTwosComplement := by
  refine ⟨fun u => s16_of_le, fun u => s16_of_ge,
    fun u => ⟨(s16_range u).1, (s16_range u).2, s16_congruent u⟩, fun u v h => s16_injective h,
    fun v hlo hhi => ⟨BitVec.ofInt 16 v, s16_ofInt hlo hhi, toNat_ofInt_half v, ?_⟩, ?_⟩
  · rw [toNat_ofInt_half]
    split
    · omega
    · omega
  · decide

end Sys2Proof.Machine
end

section
/-! The command of SETSPD (spec/43_set_speed.md): the opcode says the sign, the data bytes carry the magnitude
(R101), up to 4095 the two determine the speed (R102), and negating the speed changes the opcode only (R105). -/

namespace Sys2Proof.Machine

/-! ### R101: sign and magnitude -/

theorem commandBytes_setspd_of_nonneg {s : Half} (h : 0 ≤ s16 s) :
    commandBytes .setspd s = [0x85#8, lowField (magnitude s), highField (magnitude s)] :=
  if_neg (Int.not_lt.mpr h)

theorem commandBytes_setspd_of_neg {s : Half} (h : s16 s < 0) :
    commandBytes .setspd s = [0x86#8, lowField (magnitude s), highField (magnitude s)] :=
  if_pos h

theorem commandBytes_setspd (s : Half) :
    commandBytes .setspd s =
      [if s16 s < 0 then 0x86#8 else 0x85#8, lowField (magnitude s), highField (magnitude s)] := by
  by_cases hneg : s16 s < 0
  · rw [commandBytes_setspd_of_neg hneg, if_pos hneg]
  · rw [commandBytes_setspd_of_nonneg (Int.not_lt.mp hneg), if_neg hneg]

theorem magnitude_eq_abs (s : Half) : (magnitude s : Int) = |s16 s| := Int.natCast_natAbs (s16 s)

/-- Settles O9: each sign is one branch of the encoder, and the fields see the magnitude modulo 4096 only. -/
theorem signOfTheSpeedSelectsTheOpcode : Obligations.SignOfTheSpeedSelectsTheOpcode := by
  refine ⟨fun s => commandBytes_setspd_of_nonneg, fun s => commandBytes_setspd_of_neg,
    fun s => ⟨magnitude_eq_abs s, magnitude_le s⟩, fun s => ?_, by decide⟩
  rw [lowField_mod, highField_mod, commandBytes_setspd]

/-! ### R102: exactness up to 4095 -/

theorem lowField_le (m : Nat) : (lowField m).toNat ≤ 31 := by
  rw [lowField_toNat]
  omega

theorem highField_le (m : Nat) : (highField m).toNat ≤ 127 := by
  rw [highField_toNat]
  omega

theorem highField_msb (m : Nat) : (highField m).msb = false :=
  BitVec.msb_eq_false_iff_two_mul_lt.mpr (by have := highField_le m; omega)

theorem lowField_msb (m : Nat) : (lowField m).msb = false :=
  BitVec.msb_eq_false_iff_two_mul_lt.mpr (by have := lowField_le m; omega)

/-- Bits 7:5 of the low data byte are clear. -/
theorem lowField_extract_high (m : Nat) : (lowField m).extractLsb' 5 3 = 0#3 := by
  apply BitVec.eq_of_toNat_eq
  simp only [BitVec.extractLsb'_toNat, lowField_toNat, BitVec.toNat_ofNat, Nat.shiftRight_eq_div_pow]
  omega

/-- The data bytes lose nothing below 4096. -/
theorem eq_of_fields_eq {m n : Nat} (hm : m ≤ 4095) (hn : n ≤ 4095) (hlow : lowField m = lowField n)
    (hhigh : highField m = highField n) : m = n := by
  have hmod : m % 4096 = n % 4096 := by
    rw [← lowField_add_highField, hlow, hhigh, lowField_add_highField]
  rwa [Nat.mod_eq_of_lt (Nat.lt_succ_of_le hm), Nat.mod_eq_of_lt (Nat.lt_succ_of_le hn)] at hmod

/-- The opcode gives the sign back. -/
theorem opcode_eq_rev_iff (s : Half) :
    (if s16 s < 0 then 0x86#8 else 0x85#8 : Byte) = 0x86#8 ↔ s16 s < 0 := by
  by_cases hneg : s16 s < 0
  · rw [if_pos hneg]
    exact iff_of_true rfl hneg
  · rw [if_neg hneg]
    exact iff_of_false (by decide) hneg

/-- A speed is its sign and its magnitude. -/
theorem eq_of_sign_of_magnitude {s s' : Half} (hsign : s16 s < 0 ↔ s16 s' < 0)
    (hmag : magnitude s = magnitude s') : s = s' := by
  apply s16_injective
  unfold magnitude at hmag
  omega

theorem commandBytes_setspd_injOn {s s' : Half} (hs : magnitude s ≤ 4095) (hs' : magnitude s' ≤ 4095)
    (h : commandBytes .setspd s = commandBytes .setspd s') : s = s' := by
  rw [commandBytes_setspd, commandBytes_setspd, List.cons_eq_cons, List.cons_eq_cons,
    List.cons_eq_cons] at h
  obtain ⟨hopcode, hlow, hhigh, -⟩ := h
  have hsign : s16 s < 0 ↔ s16 s' < 0 := by
    rw [← opcode_eq_rev_iff, hopcode, opcode_eq_rev_iff]
  exact eq_of_sign_of_magnitude hsign (eq_of_fields_eq hs hs' hlow hhigh)

theorem highField_le_of_inContract {s : Half} (h : inContract s = true) :
    (highField (magnitude s)).toNat ≤ 100 := by
  have hle : magnitude s ≤ 3200 := of_decide_eq_true h
  rw [highField_toNat]
  omega

/-- Settles O10: the opcode gives the sign back and, up to 4095, the two fields give the magnitude. -/
theorem speedCommandsAreExactUpTo4095 : Obligations.SpeedCommandsAreExactUpTo4095 := by
  refine ⟨fun s h => ⟨?_, lowField_le _, highField_le _⟩, fun s => highField_le_of_inContract,
    fun s s' => commandBytes_setspd_injOn,
    fun s => ⟨_, _, _, commandBytes_setspd s, lowField_extract_high _, lowField_msb _, highField_msb _⟩⟩
  rw [lowField_add_highField, Nat.mod_eq_of_lt (Nat.lt_succ_of_le h)]

/-! ### R105: opposite speeds; R104: the one operand that is its own opposite -/

/-- But for -32768, negating the 16 bits negates the speed. -/
theorem s16_neg {s : Half} (h : s ≠ 0x8000#16) : s16 (-s) = -s16 s := by
  rw [s16_eq_toInt, s16_eq_toInt]
  exact BitVec.toInt_neg_of_ne_intMin h

theorem magnitude_neg (s : Half) : magnitude (-s) = magnitude s := by
  by_cases hmin : s = 0x8000#16
  · subst hmin
    rfl
  · rw [magnitude, s16_neg hmin, Int.natAbs_neg, magnitude]

theorem s16_neg_of_pos {s : Half} (h : 1 ≤ s16 s) : s16 (-s) < 0 := by
  have hmin : s ≠ 0x8000#16 := by
    rintro rfl
    exact absurd h (by decide)
  rw [s16_neg hmin]
  omega

/-- Settles O13: the magnitude of `-s` is that of `s`, and the sign is the other one. -/
theorem oppositeSpeedsDifferInTheOpcodeOnly : Obligations.OppositeSpeedsDifferInTheOpcodeOnly := by
  refine ⟨fun s h => ⟨lowField (magnitude s), highField (magnitude s), ?_, ?_⟩, by decide⟩
  · exact commandBytes_setspd_of_nonneg (Int.le_of_lt h)
  · rw [commandBytes_setspd_of_neg (s16_neg_of_pos h), magnitude_neg]

/-- Settles O12: the operand is fixed, so the model evaluates every clause. -/
theorem mostNegativeSpeedIsReverseZero : Obligations.MostNegativeSpeedIsReverseZero := by
  unfold Obligations.MostNegativeSpeedIsReverseZero
  decide

end Sys2Proof.Machine
end

section
/-! Entering the one exception (spec/60_exceptions.md R115): the error is posted, and everything outside the
result stays as it was. -/

namespace Sys2Proof.Machine

/-- R111: no cause is recorded, so raising any of them is posting the error. -/
theorem raiseSerialError_eq_postError (cause : Cause) (s : State) :
    raiseSerialError cause s = s.postError := rfl

theorem postError_sameTransportSide (s : State) : sameTransportSide s s.postError := by
  simp [sameTransportSide]

theorem postError_sameHostSide (s : State) : sameHostSide s s.postError := by
  simp [sameHostSide]

/-- R115: the operation makes no further call, for only DELIVER can follow the error. -/
theorem step_postError_makes_no_call (s : State) :
    ∃ t, step s.postError = .next t ∧ t.calls = s.calls :=
  ⟨deliver s.postError, step_done s.postError_phase, by rw [deliver_calls, State.postError_calls]⟩

/-- R16: `res_err` is tested first, so no reading of `res_val` shows through an error. -/
theorem portResult_error (op : Op) (v : Half) : portResult op true v = .serialError := rfl

/-- Settles O27: whatever the cause, the error is posted and nothing else moves. -/
theorem serialErrorEntry : Obligations.SerialErrorEntry := by
  intro cause cause' s
  rw [raiseSerialError_eq_postError, raiseSerialError_eq_postError]
  exact ⟨s.postError_resErr, s.postError_phase, s.postError_outstanding, rfl,
    postError_sameTransportSide s, postError_sameHostSide s,
    s.postError_opQ, s.postError_argQ, s.postError_rsp,
    step_postError_makes_no_call s, portResult_error .getspd⟩

end Sys2Proof.Machine
end

section
/-! The codec as two inverse functions (spec/30_encoding.md): what the parser accepts is the encoding of a
well-formed wire command followed by the rest (R60, R64), and from this one equivalence the decoder (R67) and the
stream parser (section 6). -/

namespace Sys2Proof.Machine

/-! ### R54, R57: the data bytes of a CMD3 -/

theorem lowField_of_le {ll : Byte} (hh : Nat) (hle : ll.toNat ≤ 0x1F) :
    lowField (ll.toNat + 32 * hh) = ll := by
  apply BitVec.eq_of_toNat_eq
  rw [lowField_toNat]
  omega

theorem highField_of_le {ll hh : Byte} (hl : ll.toNat ≤ 0x1F) (hle : hh.toNat ≤ 0x7F) :
    highField (ll.toNat + 32 * hh.toNat) = hh := by
  apply BitVec.eq_of_toNat_eq
  rw [highField_toNat]
  omega

theorem parseMagnitude_fields (mk : Nat → Instr) {m : Nat} (hm : m < 4096) (rest : List Byte) :
    parseMagnitude mk (lowField m :: highField m :: rest) = .ok (mk m, rest) := by
  rw [parseMagnitude, if_pos ⟨lowField_le m, highField_le m⟩, lowField_add_highField,
    Nat.mod_eq_of_lt hm]

/-- Two data bytes with their must-be-zero bits clear are the fields of the magnitude they carry. -/
theorem fields_of_parseMagnitude {mk : Nat → Instr} {bytes rest : List Byte} {i : Instr}
    (h : parseMagnitude mk bytes = .ok (i, rest)) :
    ∃ m < 4096, i = mk m ∧ bytes = lowField m :: highField m :: rest := by
  match bytes with
  | [] | [_] => cases h
  | ll :: hh :: tail =>
    by_cases hle : ll.toNat ≤ 0x1F ∧ hh.toNat ≤ 0x7F
    · obtain ⟨hl, hu⟩ := hle
      rw [parseMagnitude, if_pos ⟨hl, hu⟩] at h
      cases h
      exact ⟨ll.toNat + 32 * hh.toNat, by omega, rfl, by rw [lowField_of_le _ hl, highField_of_le hl hu]⟩
    · rw [parseMagnitude, if_neg hle] at h
      cases h

/-! ### R60, R64: one command -/

theorem parseCommand_encode_append {i : Instr} (hwire : i.isWire = true) (hwf : i.wellFormed = true)
    (rest : List Byte) : parseCommand ((encode i).bytes ++ rest) = .ok (i, rest) := by
  cases i with
  | exitSafeStart | readVar => rfl
  | setSpeedFwd m => exact parseMagnitude_fields .setSpeedFwd (of_decide_eq_true hwf) rest
  | setSpeedRev m => exact parseMagnitude_fields .setSpeedRev (of_decide_eq_true hwf) rest
  | getvar | getspd | geterr | exitss | setspd => cases hwire

/-- What the parser reads off the head is the encoding of a well-formed wire command. -/
theorem encode_append_of_parseCommand {bytes rest : List Byte} {i : Instr}
    (h : parseCommand bytes = .ok (i, rest)) :
    (i.isWire = true ∧ i.wellFormed = true) ∧ (encode i).bytes ++ rest = bytes := by
  cases bytes with
  | nil => cases h
  | cons b tail =>
    rw [parseCommand.eq_def] at h
    dsimp only at h
    split_ifs at h with hexit hfwd hrev hread
    · cases h
      exact ⟨⟨rfl, rfl⟩, by rw [hexit]; rfl⟩
    · obtain ⟨m, hm, rfl, rfl⟩ := fields_of_parseMagnitude h
      exact ⟨⟨rfl, decide_eq_true hm⟩, by rw [hfwd]; rfl⟩
    · obtain ⟨m, hm, rfl, rfl⟩ := fields_of_parseMagnitude h
      exact ⟨⟨rfl, decide_eq_true hm⟩, by rw [hrev]; rfl⟩
    · cases tail with
      | nil => cases h
      | cons id tail =>
        cases h
        exact ⟨⟨rfl, rfl⟩, by rw [hread]; rfl⟩

/-! ### R67, R51: the decoder -/

theorem decode_wire_ok_iff {bytes : List Byte} {i : Instr} :
    decode (.wire bytes) = .ok i ↔ parseCommand bytes = .ok (i, []) := by
  rw [decode]
  split
  · next j hj => simp [hj]
  · next j b rest hj => simp [hj]
  · next e he => simp [he]

theorem encode_wire {i : Instr} (hwire : i.isWire = true) : encode i = .wire (encode i).bytes := by
  cases i with
  | exitSafeStart | setSpeedFwd | setSpeedRev | readVar => rfl
  | getvar | getspd | geterr | exitss | setspd => cases hwire

theorem decode_wire_encode {i : Instr} (hwire : i.isWire = true) (hwf : i.wellFormed = true) :
    decode (.wire (encode i).bytes) = .ok i := by
  rw [decode_wire_ok_iff]
  simpa using parseCommand_encode_append hwire hwf []

/-- What a byte sequence decodes to is a well-formed wire command with exactly these bytes. -/
theorem encode_of_decode_wire {bytes : List Byte} {i : Instr} (h : decode (.wire bytes) = .ok i) :
    (i.isWire = true ∧ i.wellFormed = true) ∧ encode i = .wire bytes := by
  obtain ⟨⟨hwire, hwf⟩, hbytes⟩ := encode_append_of_parseCommand (decode_wire_ok_iff.mp h)
  rw [List.append_nil] at hbytes
  exact ⟨⟨hwire, hwf⟩, by rw [encode_wire hwire, hbytes]⟩

theorem decode_request_of_op {r : Request} {op : Op} (hop : Op.ofSelector r.op = some op) :
    decode (.request r) = .ok (opInstr op r.arg) := by
  simp [decode, hop]

/-- A host request decodes to the operation of its selector, or not at all. -/
theorem exists_op_of_decode_request {r : Request} {i : Instr} (h : decode (.request r) = .ok i) :
    ∃ op, Op.ofSelector r.op = some op ∧ i = opInstr op r.arg := by
  cases hop : Op.ofSelector r.op with
  | none => simp [decode_reserved hop] at h
  | some op =>
    rw [decode_request_of_op hop, Except.ok.injEq] at h
    exact ⟨op, rfl, h.symm⟩

theorem encode_opInstr (op : Op) (arg : Half) :
    encode (opInstr op arg) = .request ⟨op.selector, arg⟩ := by
  cases op with
  | getvar => simp only [opInstr, encode, hiByte_append_loByte]
  | getspd | geterr | exitss | setspd => rfl

@[simp] theorem isWire_opInstr (op : Op) (arg : Half) : (opInstr op arg).isWire = false := by
  cases op <;> rfl

theorem wellFormed_opInstr (op : Op) (arg : Half) : (opInstr op arg).wellFormed = true := by
  cases op <;> rfl

/-- Settles O3: a wire command by the parser's equivalence, a host operation by its selector. -/
theorem decodeOfEncodeIsIdentity : Obligations.DecodeOfEncodeIsIdentity := by
  intro i hwf
  cases hwire : i.isWire with
  | true =>
    rw [encode_wire hwire]
    exact decode_wire_encode hwire hwf
  | false =>
    obtain ⟨op, arg, rfl⟩ := exists_eq_opInstr hwire
    rw [encode_opInstr]
    exact decode_request_of_op (ofSelector_selector op)

/-- Settles O4: bytes by the parser's equivalence, a request because each operation has one selector. -/
theorem encodeOfDecodeIsIdentity : Obligations.EncodeOfDecodeIsIdentity := by
  intro c i h
  cases c with
  | wire bytes =>
    obtain ⟨⟨-, hwf⟩, henc⟩ := encode_of_decode_wire h
    exact ⟨henc, hwf⟩
  | request r =>
    obtain ⟨op, hop, rfl⟩ := exists_op_of_decode_request h
    exact ⟨by rw [encode_opInstr, selector_of_ofSelector hop], wellFormed_opInstr op r.arg⟩

/-! ### Section 6: streams of whole commands -/

/-- The bytes of a sequence of commands, one after another. -/
def streamBytes (is : List Instr) : List Byte := is.flatMap fun i => (encode i).bytes

theorem streamBytes_cons (i : Instr) (is : List Instr) :
    streamBytes (i :: is) = (encode i).bytes ++ streamBytes is := rfl

theorem streamBytes_append (is js : List Instr) :
    streamBytes (is ++ js) = streamBytes is ++ streamBytes js := List.flatMap_append

theorem bytes_length_pos {i : Instr} (hwire : i.isWire = true) : 0 < (encode i).bytes.length := by
  cases i with
  | exitSafeStart | setSpeedFwd | setSpeedRev | readVar => exact Nat.zero_lt_succ _
  | getvar | getspd | geterr | exitss | setspd => cases hwire

theorem parseStreamFuel_of_parseCommand {fuel : Nat} {bytes rest : List Byte} {i : Instr}
    {is : List Instr} (hi : parseCommand bytes = .ok (i, rest))
    (his : parseStreamFuel fuel rest = .ok is) : parseStreamFuel (fuel + 1) bytes = .ok (i :: is) := by
  cases bytes with
  | nil => cases hi
  | cons b tail => simp [parseStreamFuel, hi, his]

/-- A stream that parses is empty, or one command and a stream that parses with less fuel. -/
theorem parseStreamFuel_ok_cases {fuel : Nat} {bytes : List Byte} {is : List Instr}
    (h : parseStreamFuel fuel bytes = .ok is) :
    (bytes = [] ∧ is = []) ∨ ∃ n i rest js, fuel = n + 1 ∧ is = i :: js ∧
      parseCommand bytes = .ok (i, rest) ∧ parseStreamFuel n rest = .ok js := by
  match fuel, bytes with
  | 0, [] | _ + 1, [] =>
    cases h
    exact .inl ⟨rfl, rfl⟩
  | 0, _ :: _ => cases h
  | n + 1, b :: tail =>
    right
    cases hi : parseCommand (b :: tail) with
    | error e => simp [parseStreamFuel, hi] at h
    | ok p =>
      obtain ⟨i, rest⟩ := p
      cases hjs : parseStreamFuel n rest with
      | error e => simp [parseStreamFuel, hi, hjs] at h
      | ok js =>
        rw [parseStreamFuel_of_parseCommand hi hjs, Except.ok.injEq] at h
        exact ⟨n, i, rest, js, rfl, h.symm, rfl, hjs⟩

theorem parseStreamFuel_streamBytes {is : List Instr}
    (hcmd : ∀ i ∈ is, i.isWire = true ∧ i.wellFormed = true) {fuel : Nat}
    (hfuel : (streamBytes is).length ≤ fuel) : parseStreamFuel fuel (streamBytes is) = .ok is := by
  induction is generalizing fuel with
  | nil => cases fuel <;> rfl
  | cons i is ih =>
    obtain ⟨⟨hwire, hwf⟩, hrest⟩ := List.forall_mem_cons.mp hcmd
    have hpos := bytes_length_pos hwire
    rw [streamBytes_cons, List.length_append] at hfuel
    obtain ⟨n, rfl⟩ : ∃ n, fuel = n + 1 := Nat.exists_eq_succ_of_ne_zero (by omega)
    exact parseStreamFuel_of_parseCommand (parseCommand_encode_append hwire hwf _)
      (ih hrest (by omega))

theorem streamBytes_of_parseStreamFuel {fuel : Nat} {bytes : List Byte} {is : List Instr}
    (h : parseStreamFuel fuel bytes = .ok is) :
    (∀ i ∈ is, i.isWire = true ∧ i.wellFormed = true) ∧ streamBytes is = bytes := by
  induction fuel generalizing bytes is with
  | zero =>
    obtain ⟨rfl, rfl⟩ | ⟨n, -, -, -, hn, -⟩ := parseStreamFuel_ok_cases h
    · exact ⟨nofun, rfl⟩
    · cases hn
  | succ fuel ih =>
    obtain ⟨rfl, rfl⟩ | ⟨n, i, rest, js, hn, rfl, hi, hjs⟩ := parseStreamFuel_ok_cases h
    · exact ⟨nofun, rfl⟩
    · cases hn
      obtain ⟨hcmd, hbytes⟩ := encode_append_of_parseCommand hi
      obtain ⟨hcmds, hrest⟩ := ih hjs
      exact ⟨List.forall_mem_cons.mpr ⟨hcmd, hcmds⟩, by rw [streamBytes_cons, hrest, hbytes]⟩

/-- Section 6: a byte sequence parses as `is` exactly when it is the bytes of these commands. -/
theorem parseStream_ok_iff {bytes : List Byte} {is : List Instr} :
    parseStream bytes = .ok is ↔
      (∀ i ∈ is, i.isWire = true ∧ i.wellFormed = true) ∧ streamBytes is = bytes := by
  refine ⟨streamBytes_of_parseStreamFuel, ?_⟩
  rintro ⟨hcmd, rfl⟩
  exact parseStreamFuel_streamBytes hcmd le_rfl

/-- Settles O5, by induction on the commands: each takes its own bytes off the head and leaves the others'. -/
theorem streamOfCommandsParsesUniquely : Obligations.StreamOfCommandsParsesUniquely :=
  fun _ hcmd => parseStream_ok_iff.mpr ⟨hcmd, rfl⟩

end Sys2Proof.Machine
end

section
/-! The opcode table against the decoder (spec/30_encoding.md section 4): what each row's mask and match say of
a word's bytes, and what the decoder reads from these bytes (R60). -/

namespace Sys2Proof.Machine

/-! ### Words and their bytes -/

theorem tableBytes_two (w : Nat) :
    tableBytes 2 w = [BitVec.ofNat 8 (w / 256), BitVec.ofNat 8 w] := by
  rw [← Nat.shiftRight_eq_div_pow w 8]
  rfl

theorem tableBytes_three (w : Nat) :
    tableBytes 3 w = [BitVec.ofNat 8 (w / 65536), BitVec.ofNat 8 (w / 256), BitVec.ofNat 8 w] := by
  rw [← Nat.shiftRight_eq_div_pow w 8, ← Nat.shiftRight_eq_div_pow w 16]
  rfl

theorem tableCode_request {n w : Nat} (hn : n = 19 ∨ n = 24) (hw : w < 2 ^ 19) :
    tableCode n w = some (.request ⟨BitVec.ofNat 3 (w / 65536), BitVec.ofNat 16 w⟩) := by
  rw [← Nat.shiftRight_eq_div_pow w 16]
  have hlt : w < 524288 := hw
  obtain rfl | rfl := hn <;> simp [tableCode, hlt]

theorem tableCode_three_bytes {w : Nat} (hlo : 2 ^ 19 ≤ w) (hhi : w < 2 ^ 24) :
    tableCode 24 w = some (.wire (tableBytes 3 w)) := by
  have hge : ¬ w < 524288 := Nat.not_lt.mpr hlo
  have hlt : w < 16777216 := hhi
  simp [tableCode, hge, hlt]

/-- A word of the table is the bytes of a wire command or a host request. -/
theorem tableCode_cases {n w : Nat} {c : Code} (h : tableCode n w = some c) :
    (∃ k, w < 2 ^ (8 * k) ∧ c = .wire (tableBytes k w)) ∨
      (w < 2 ^ 19 ∧ c = .request ⟨BitVec.ofNat 3 (w / 65536), BitVec.ofNat 16 w⟩) := by
  rw [← Nat.shiftRight_eq_div_pow w 16]
  unfold tableCode at h
  split_ifs at h with h8 h16 h19 h24 <;> cases h
  · exact .inl ⟨1, h8.2, rfl⟩
  · exact .inl ⟨2, h16.2, rfl⟩
  · exact .inr ⟨h19.2, rfl⟩
  · exact .inl ⟨3, h24.2, rfl⟩

theorem decodeTableWord_eq_some_iff {n w : Nat} {i : Instr} :
    decodeTableWord n w = some i ↔ ∃ c, tableCode n w = some c ∧ decode c = .ok i := by
  unfold decodeTableWord
  cases tableCode n w with
  | none => simp
  | some c => cases hd : decode c <;> simp [hd]

/-! ### What a mask and match say of a word -/

theorem selects_iff {r : TableRow} {w : Nat} :
    r.selects w = true ↔ w < 2 ^ r.bits ∧ w &&& r.mask = r.value := decide_eq_true_iff

/-- A mask works on the bits above and below any position apart. -/
theorem land_eq_iff_div_mod (k x m v : Nat) :
    x &&& m = v ↔ x / 2 ^ k &&& m / 2 ^ k = v / 2 ^ k ∧ x % 2 ^ k &&& m % 2 ^ k = v % 2 ^ k := by
  rw [← Nat.and_div_two_pow, ← Nat.and_mod_two_pow]
  exact Nat.ext_div_mod_iff (2 ^ k) _ v

/-- `b[7:5] = 0` as a bound. -/
theorem land_e0_eq_zero_iff {b : Nat} (hb : b < 256) : b &&& 0xE0 = 0 ↔ b ≤ 31 := by
  have hseven : b / 32 &&& 7 = b / 32 % 8 := Nat.and_two_pow_sub_one_eq_mod _ 3
  rw [land_eq_iff_div_mod 5]
  simp only [Nat.reducePow, Nat.reduceDiv, hseven, Nat.zero_div, Nat.reduceMod, Nat.and_zero,
    Nat.zero_mod, and_true]
  omega

/-- `b[7] = 0` as a bound. -/
theorem land_80_eq_zero_iff {b : Nat} (hb : b < 256) : b &&& 0x80 = 0 ↔ b ≤ 127 := by
  rw [land_eq_iff_div_mod 7]
  simp only [Nat.reducePow, Nat.reduceDiv, Nat.and_one_is_mod, Nat.zero_div, Nat.reduceMod,
    Nat.and_zero, Nat.zero_mod, and_true]
  omega

theorem land_ff (b : Nat) : b &&& 0xFF = b % 256 := Nat.and_two_pow_sub_one_eq_mod b 8

theorem selects_cmd1 {w : Nat} : (tableRow .exitSafeStart).selects w = true ↔ w = 0x83 := by
  rw [selects_iff]
  simp only [tableRow, land_ff]
  omega

theorem selects_cmd2 {w : Nat} (id : Byte) :
    (tableRow (.readVar id)).selects w = true ↔ w < 2 ^ 16 ∧ w / 256 = 0xA1 := by
  rw [selects_iff]
  simp only [tableRow]
  rw [land_eq_iff_div_mod 8]
  simp only [Nat.reducePow, Nat.reduceDiv, land_ff, Nat.reduceMod, Nat.and_zero, and_true]
  omega

/-- R54: a CMD3 row fixes the opcode byte and the must-be-zero bits of both data bytes. -/
theorem selects_cmd3 {w b : Nat} :
    TableRow.selects ⟨24, 0xFFE080, b * 65536⟩ w = true ↔
      w < 2 ^ 24 ∧ w / 65536 = b ∧ w / 256 % 256 ≤ 31 ∧ w % 256 ≤ 127 := by
  have hmid := land_e0_eq_zero_iff (Nat.mod_lt (w / 256) (show 0 < 256 by decide))
  have hlow := land_80_eq_zero_iff (Nat.mod_lt w (show 0 < 256 by decide))
  rw [selects_iff, land_eq_iff_div_mod 16, land_eq_iff_div_mod 8 (w % 2 ^ 16)]
  simp only [Nat.reducePow, Nat.reduceDiv, Nat.reduceMod, land_ff, Nat.mul_mod_left,
    Nat.mul_div_cancel b (show 0 < 65536 by decide), Nat.zero_div, Nat.zero_mod]
  have hdiv : w % 65536 / 256 = w / 256 % 256 := by omega
  have hmod : w % 65536 % 256 = w % 256 := by omega
  rw [hdiv, hmod, hmid, hlow]
  omega

theorem tableRow_opInstr (op : Op) (arg : Half) :
    tableRow (opInstr op arg) = ⟨19, 0x70000, op.selector.toNat * 65536⟩ := by
  cases op <;> rfl

theorem selects_hreq {w : Nat} (op : Op) (arg : Half) :
    (tableRow (opInstr op arg)).selects w = true ↔ w < 2 ^ 19 ∧ w / 65536 = op.selector.toNat := by
  have hsel := op.selector.isLt
  rw [tableRow_opInstr, selects_iff]
  dsimp only
  rw [land_eq_iff_div_mod 16]
  have hseven : w / 65536 &&& 7 = w / 65536 % 8 := Nat.and_two_pow_sub_one_eq_mod _ 3
  simp only [Nat.reducePow, Nat.reduceDiv, hseven, Nat.mul_div_cancel _ (show 0 < 65536 by decide),
    Nat.reduceMod, Nat.and_zero, Nat.mul_mod_left, and_true]
  omega

/-! ### The decoder reads the row that selects -/

/-- The first three bytes of a word, as digits. -/
theorem selects_setSpeed_of_bytes {b ll hh : Byte} {w : Nat} (hw : w < 2 ^ 24) (hl : ll.toNat ≤ 31)
    (hh' : hh.toNat ≤ 127) (hbytes : [b, ll, hh] = tableBytes 3 w) :
    TableRow.selects ⟨24, 0xFFE080, b.toNat * 65536⟩ w = true := by
  simp only [tableBytes_three, List.cons.injEq, BitVec.toNat_eq, BitVec.toNat_ofNat] at hbytes
  obtain ⟨hb, hlow, hhigh, -⟩ := hbytes
  rw [selects_cmd3]
  omega

/-- A word that is the bytes of a wire command is selected by the command's row. -/
theorem selects_of_encode_eq {i : Instr} {k w : Nat} (hw : w < 2 ^ (8 * k))
    (henc : encode i = .wire (tableBytes k w)) : (tableRow i).selects w = true := by
  have hk : k = (encode i).bytes.length := by simp [henc, Code.bytes, tableBytes]
  cases i with
  | exitSafeStart =>
    obtain rfl : k = 1 := hk
    have hbyte : (0x83#8).toNat = w % 256 := congrArg BitVec.toNat (List.cons.inj (Code.wire.inj henc)).1
    rw [selects_cmd1, ← Nat.mod_eq_of_lt hw]
    exact hbyte.symm
  | readVar id =>
    obtain rfl : k = 2 := hk
    have hbyte : (0xA1#8).toNat = w / 256 % 256 := by
      rw [tableBytes_two] at henc
      exact congrArg BitVec.toNat (List.cons.inj (Code.wire.inj henc)).1
    rw [selects_cmd2]
    have hop : (0xA1#8).toNat = 0xA1 := rfl
    omega
  | setSpeedFwd m | setSpeedRev m =>
    obtain rfl : k = 3 := hk
    exact selects_setSpeed_of_bytes hw (lowField_le m) (highField_le m) (Code.wire.inj henc)
  | getvar | getspd | geterr | exitss | setspd => cases henc

/-- A word below 2^19 read as a host request is selected by the row of the operation it decodes to. -/
theorem selects_of_request {i : Instr} {w : Nat} (hw : w < 2 ^ 19)
    (hd : decode (.request ⟨BitVec.ofNat 3 (w / 65536), BitVec.ofNat 16 w⟩) = .ok i) :
    (tableRow i).selects w = true := by
  obtain ⟨op, hop, rfl⟩ := exists_op_of_decode_request hd
  have hsel : op.selector = BitVec.ofNat 3 (w / 65536) := selector_of_ofSelector hop
  rw [selects_hreq, hsel, BitVec.toNat_ofNat]
  omega

/-- A word that decodes, at any width, is selected by the row of what it decodes to. -/
theorem selects_of_decodeTableWord {n w : Nat} {i : Instr} (h : decodeTableWord n w = some i) :
    (tableRow i).selects w = true := by
  obtain ⟨c, hc, hd⟩ := decodeTableWord_eq_some_iff.mp h
  obtain ⟨k, hw, rfl⟩ | ⟨hw, rfl⟩ := tableCode_cases hc
  · obtain ⟨-, henc⟩ := encode_of_decode_wire hd
    exact selects_of_encode_eq hw henc
  · exact selects_of_request hw hd

/-! ### A row that selects is what the decoder reads -/

/-- A CMD3 word a row selects is the opcode and the fields of the magnitude its data bytes carry. -/
theorem tableBytes_of_selects_cmd3 {b : Byte} {w : Nat}
    (h : TableRow.selects ⟨24, 0xFFE080, b.toNat * 65536⟩ w = true) :
    ∃ m < 4096, tableBytes 3 w = [b, lowField m, highField m] := by
  obtain ⟨-, hb, hl, hh⟩ := selects_cmd3.mp h
  have hlow : (BitVec.ofNat 8 (w / 256)).toNat ≤ 31 := by rwa [BitVec.toNat_ofNat]
  have hhigh : (BitVec.ofNat 8 w).toNat ≤ 127 := by rwa [BitVec.toNat_ofNat]
  refine ⟨(BitVec.ofNat 8 (w / 256)).toNat + 32 * (BitVec.ofNat 8 w).toNat, by omega, ?_⟩
  rw [tableBytes_three, lowField_of_le _ hlow, highField_of_le hlow hhigh, hb, BitVec.ofNat_toNat,
    BitVec.setWidth_eq]

/-- A CMD3 word whose opcode byte has bit 7 set is no host request; it decodes as its bytes do. -/
theorem decodeTableWord_cmd3 {mk : Nat → Instr} {b : Byte} {w : Nat} (hb : 0x80 ≤ b.toNat)
    (hmk : ∀ m < 4096, decode (.wire [b, lowField m, highField m]) = .ok (mk m))
    (h : TableRow.selects ⟨24, 0xFFE080, b.toNat * 65536⟩ w = true) :
    ∃ m, decodeTableWord 24 w = some (mk m) := by
  obtain ⟨m, hm, hbytes⟩ := tableBytes_of_selects_cmd3 h
  obtain ⟨hw, hdiv, -⟩ := selects_cmd3.mp h
  refine ⟨m, decodeTableWord_eq_some_iff.mpr ⟨_, tableCode_three_bytes (by omega) hw, ?_⟩⟩
  rw [hbytes]
  exact hmk m hm

theorem decodeTableWord_of_selects {i : Instr} {w : Nat} (h : (tableRow i).selects w = true) :
    ∃ j, decodeTableWord (tableRow i).bits w = some j ∧ tableRow j = tableRow i := by
  cases hwire : i.isWire with
  | false =>
    obtain ⟨op, arg, rfl⟩ := exists_eq_opInstr hwire
    obtain ⟨hw, hdiv⟩ := (selects_hreq op arg).mp h
    refine ⟨opInstr op (BitVec.ofNat 16 w), decodeTableWord_eq_some_iff.mpr
      ⟨.request ⟨op.selector, BitVec.ofNat 16 w⟩, ?_, ?_⟩, by rw [tableRow_opInstr, tableRow_opInstr]⟩
    · rw [tableRow_opInstr, tableCode_request (.inl rfl) hw, hdiv, BitVec.ofNat_toNat,
        BitVec.setWidth_eq]
    · exact decode_request_of_op (ofSelector_selector op)
  | true =>
    cases i with
    | exitSafeStart =>
      obtain rfl := selects_cmd1.mp h
      exact ⟨.exitSafeStart, by decide, rfl⟩
    | readVar id =>
      obtain ⟨hw, hdiv⟩ := (selects_cmd2 id).mp h
      refine ⟨.readVar (BitVec.ofNat 8 w), decodeTableWord_eq_some_iff.mpr
        ⟨.wire [0xA1#8, BitVec.ofNat 8 w], ?_, rfl⟩, rfl⟩
      have hlt : w < 65536 := hw
      simp [tableRow, tableCode, hlt, tableBytes_two, hdiv]
    | setSpeedFwd m =>
      obtain ⟨m', hm'⟩ := decodeTableWord_cmd3 (b := 0x85#8) (by decide)
        (fun m hm => decode_wire_encode (i := .setSpeedFwd m) rfl (decide_eq_true hm)) h
      exact ⟨_, hm', rfl⟩
    | setSpeedRev m =>
      obtain ⟨m', hm'⟩ := decodeTableWord_cmd3 (b := 0x86#8) (by decide)
        (fun m hm => decode_wire_encode (i := .setSpeedRev m) rfl (decide_eq_true hm)) h
      exact ⟨_, hm', rfl⟩
    | getvar | getspd | geterr | exitss | setspd => cases hwire

/-- Settles O2: both directions come from what each row's mask says of a word's bytes. -/
theorem tableMasksSelectTheDecodedRow : Obligations.TableMasksSelectTheDecodedRow := by
  refine ⟨fun w i h => ?_, fun w i => decodeTableWord_of_selects⟩
  obtain h | h | h | h := h <;> exact selects_of_decodeTableWord h

/-- Settles O1: the words are fixed, so the decoder evaluates them. -/
theorem tableWordsDecodeToTheirRows : Obligations.TableWordsDecodeToTheirRows := by
  unfold Obligations.TableWordsDecodeToTheirRows
  decide

end Sys2Proof.Machine
end

section
/-! The commands SPED builds (spec/30_encoding.md sections 4, 5 and 7): each is the encoding of one wire
instruction, named here, from which its row, its length and its reading back follow. -/

namespace Sys2Proof.Machine

/-! ### R60: the wire instruction of an operation -/

/-- The wire instruction whose encoding `commandBytes op arg` is. -/
def commandInstr (op : Op) (arg : Half) : Instr :=
  match op with
  | .getvar => .readVar (loByte arg)
  | .getspd => .readVar Config.varTargetSpeed
  | .geterr => .readVar Config.varErrorStatus
  | .exitss => .exitSafeStart
  | .setspd =>
    if s16 arg < 0 then .setSpeedRev (magnitude arg % 4096) else .setSpeedFwd (magnitude arg % 4096)

/-- R55: the one wire command that is answered. -/
def readsReply : Instr → Bool
  | .readVar _ => true
  | .exitSafeStart | .setSpeedFwd _ | .setSpeedRev _ => false
  | .getvar _ _ | .getspd _ | .geterr _ | .exitss _ | .setspd _ => false

theorem readsReply_iff {i : Instr} : readsReply i = true ↔ ∃ id, i = .readVar id := by
  cases i <;> simp [readsReply]

section
variable (op : Op) (arg : Half)

theorem commandInstr_setspd_of_neg {arg : Half} (h : s16 arg < 0) :
    commandInstr .setspd arg = .setSpeedRev (magnitude arg % 4096) := if_pos h

theorem commandInstr_setspd_of_nonneg {arg : Half} (h : ¬ s16 arg < 0) :
    commandInstr .setspd arg = .setSpeedFwd (magnitude arg % 4096) := if_neg h

@[simp] theorem isWire_commandInstr : (commandInstr op arg).isWire = true := by
  cases op with
  | getvar | getspd | geterr | exitss => rfl
  | setspd =>
    by_cases hneg : s16 arg < 0
    · rw [commandInstr_setspd_of_neg hneg]
      rfl
    · rw [commandInstr_setspd_of_nonneg hneg]
      rfl

theorem wellFormed_commandInstr : (commandInstr op arg).wellFormed = true := by
  have hlt : magnitude arg % 4096 < 4096 := Nat.mod_lt _ (by decide)
  cases op with
  | getvar | getspd | geterr | exitss => rfl
  | setspd =>
    by_cases hneg : s16 arg < 0
    · rw [commandInstr_setspd_of_neg hneg]
      exact decide_eq_true hlt
    · rw [commandInstr_setspd_of_nonneg hneg]
      exact decide_eq_true hlt

theorem encode_commandInstr : encode (commandInstr op arg) = .wire (commandBytes op arg) := by
  cases op with
  | getvar | getspd | geterr | exitss => rfl
  | setspd =>
    by_cases hneg : s16 arg < 0
    · rw [commandInstr_setspd_of_neg hneg, commandBytes_setspd_of_neg hneg, encode, lowField_mod,
        highField_mod]
      rfl
    · rw [commandInstr_setspd_of_nonneg hneg, commandBytes_setspd_of_nonneg (Int.not_lt.mp hneg),
        encode, lowField_mod, highField_mod]
      rfl

@[simp] theorem bytes_commandInstr : (encode (commandInstr op arg)).bytes = commandBytes op arg := by
  rw [encode_commandInstr]
  rfl

@[simp] theorem readsReply_commandInstr : readsReply (commandInstr op arg) = expectsReply op := by
  cases op with
  | getvar | getspd | geterr | exitss => rfl
  | setspd =>
    by_cases hneg : s16 arg < 0
    · rw [commandInstr_setspd_of_neg hneg]
      rfl
    · rw [commandInstr_setspd_of_nonneg hneg]
      rfl

/-- R61: a command SPED builds always is an instruction. -/
@[simp] theorem decode_commandBytes : decode (.wire (commandBytes op arg)) = .ok (commandInstr op arg) := by
  rw [← bytes_commandInstr]
  exact decode_wire_encode (isWire_commandInstr op arg) (wellFormed_commandInstr op arg)

end

/-- Settles O15: the row is `commandInstr`'s. -/
theorem everyCommandIsATableRow : Obligations.EveryCommandIsATableRow := by
  intro op arg
  refine ⟨⟨commandInstr op arg, isWire_commandInstr op arg, wellFormed_commandInstr op arg,
    encode_commandInstr op arg, ?_⟩, ?_⟩
  · rw [← readsReply_iff, readsReply_commandInstr]
  · cases op with
    | getvar | getspd | geterr | exitss => rfl
    | setspd => rw [commandBytes_setspd]; rfl

/-! ### Section 8, R101, R103: reading SETSPD's command back -/

/-- Settles O14: the command decodes to `commandInstr`, whose direction is the sign. -/
theorem speedCommandReadsBack : Obligations.SpeedCommandReadsBack := by
  refine ⟨fun s => decode_commandBytes .setspd s, fun s => ?_⟩
  rw [decode_commandBytes, Except.ok.injEq]
  by_cases hneg : s16 s < 0
  · simp [commandInstr_setspd_of_neg hneg, hneg]
  · simp [commandInstr_setspd_of_nonneg hneg, hneg]

/-- The command depends on the sign and the magnitude modulo 4096 only. -/
theorem commandBytes_setspd_congr {s s' : Half} (hsign : s16 s < 0 ↔ s16 s' < 0)
    (hmag : magnitude s % 4096 = magnitude s' % 4096) :
    commandBytes .setspd s = commandBytes .setspd s' := by
  rw [commandBytes_setspd, commandBytes_setspd, ← lowField_mod (magnitude s),
    ← highField_mod (magnitude s), hmag, lowField_mod, highField_mod]
  simp only [hsign]

/-- Settles O11: the fields drop everything above bit 11; the vectors are evaluated. -/
theorem largeSpeedsAliasModulo4096 : Obligations.LargeSpeedsAliasModulo4096 :=
  ⟨fun _ _ => commandBytes_setspd_congr, by decide⟩

/-! ### U17: operand bits that nothing reads -/

/-- `Run` sees its operand through the command only. -/
theorem run_congr {op : Op} {x y : Half} (hcmd : commandBytes op x = commandBytes op y)
    (a : Option WriteAnswer) (r : Option ReadAnswer) : run op x a r = run op y a r := by
  unfold run
  rw [hcmd]

/-- Settles O16: these operations build the same command from operands that differ in ignored bits. -/
theorem ignoredOperandBitsChangeNothing : Obligations.IgnoredOperandBitsChangeNothing := by
  refine ⟨fun x y id => run_congr ?_, fun op x y a r hop => run_congr ?_ a r⟩
  · simp [commandBytes]
  · obtain rfl | rfl | rfl := hop <;> rfl

/-! ### R65: the lines a request is written as -/

theorem assemble_getvar {v : Int} (hlo : 0 ≤ v) (hhi : v ≤ 255) :
    assemble "GETVAR" (some v) = some ⟨Op.getvar.selector, BitVec.ofInt 16 v⟩ :=
  if_pos ⟨rfl, hlo, hhi⟩

theorem assemble_setspd {v : Int} (hlo : -32768 ≤ v) (hhi : v ≤ 32767) :
    assemble "SETSPD" (some v) = some ⟨Op.setspd.selector, BitVec.ofInt 16 v⟩ := by
  simp [assemble, hlo, hhi]

theorem assemble_getvar_out_of_range {v : Int} (h : v < 0 ∨ 255 < v) :
    assemble "GETVAR" (some v) = none := by
  have hrange : ¬ (0 ≤ v ∧ v ≤ 255) := by omega
  simp [assemble, hrange]

theorem assemble_setspd_out_of_range {v : Int} (h : v < -32768 ∨ 32767 < v) :
    assemble "SETSPD" (some v) = none := by
  have hrange : ¬ (-32768 ≤ v ∧ v ≤ 32767) := by omega
  simp [assemble, hrange]

/-- An operand 0..255 is a VariableId below eight zero bits. -/
theorem ofInt_byte (id : Byte) : BitVec.ofInt 16 id.toNat = 0#8 ++ id := by
  apply BitVec.eq_of_toNat_eq
  have := id.isLt
  rw [append_toNat, BitVec.ofInt_natCast, BitVec.toNat_ofNat, BitVec.toNat_ofNat]
  omega

/-- Settles O56: each line is its operation's selector with the operand, and `decode` reads both back. -/
theorem syntaxNamesTheOperation : Obligations.SyntaxNamesTheOperation := by
  refine ⟨fun id => ?_, fun v hlo hhi => ?_, ⟨_, rfl, rfl⟩, ⟨_, rfl, rfl⟩, ⟨_, rfl, rfl⟩,
    fun v => assemble_getvar_out_of_range, fun v => assemble_setspd_out_of_range⟩
  · have := id.isLt
    refine ⟨_, assemble_getvar (by omega) (by omega), ?_⟩
    rw [ofInt_byte]
    exact decodeOfEncodeIsIdentity (.getvar 0#8 id) rfl
  · exact ⟨_, _, assemble_setspd hlo hhi, rfl, s16_ofInt hlo hhi⟩

end Sys2Proof.Machine
end

section
/-! The rules and the step (spec/40_transaction.md R71 to R78, spec/70_reset_and_hazards.md): a step is the
transaction of the command in hand, and so a number of rules. -/

namespace Sys2Proof.Machine

/-! ### One instruction as a transaction -/

/-- R73 to R76 for one command, with or without a reply. -/
def transact (cmd : List Byte) (reply : Bool) (s : State) : State :=
  if reply then sendAndReceive cmd s else sendOnly cmd s

theorem exec_wire {i : Instr} (hwire : i.isWire = true) (s : State) :
    exec i s = .next (transact (encode i).bytes (readsReply i) s) := by
  cases i with
  | exitSafeStart | setSpeedFwd | setSpeedRev | readVar => rfl
  | getvar | getspd | geterr | exitss | setspd => cases hwire

theorem codeAt_busy {s : State} (hp : s.phase = .write ∨ s.phase = .read) :
    codeAt s = some (.wire (command s)) := by
  obtain hp | hp := hp <;> simp [codeAt, hp]

theorem takeCode_busy {s : State} (hp : s.phase = .write ∨ s.phase = .read) : takeCode s = s := by
  obtain hp | hp := hp <;> simp [takeCode, hp]

section
variable {s : State} {r : Request} {rest : List Request} {op : Op} {i : Instr}

theorem step_busy_of_decode (hp : s.phase = .write ∨ s.phase = .read)
    (hd : decode (.wire (command s)) = .ok i) : step s = exec i s := by
  simp [step, codeAt_busy hp, takeCode_busy hp, hd]

/-- In WRITE and READ a step is the transaction of the command in hand. -/
theorem step_busy (hp : s.phase = .write ∨ s.phase = .read) :
    step s = .next (transact (command s) (expectsReply s.opQ) s) := by
  rw [step_busy_of_decode hp (decode_commandBytes s.opQ s.argQ), exec_wire (isWire_commandInstr _ _),
    bytes_commandInstr, readsReply_commandInstr, command]

theorem step_idle_of_decode (hp : s.phase = .idle) (hq : s.requests = r :: rest)
    (hd : decode (.request r) = .ok i) : step s = exec i s.dropOffer := by
  simp [step, codeAt, takeCode, hp, hq, hd]

theorem step_idle (hp : s.phase = .idle) (hq : s.requests = r :: rest)
    (hop : Op.ofSelector r.op = some op) : step s = .next (operate op r.arg s.dropOffer) := by
  rw [step_idle_of_decode hp hq (decode_request_of_op hop), exec_opInstr]

theorem step_idle_no_offer (hp : s.phase = .idle) (hq : s.requests = []) : step s = .next s := by
  have hdeliver : deliver s = s := by simp [deliver, hp]
  simp [step, codeAt, hp, hq, hdeliver]

end

/-- Settles O29: `step` is `exec` of what `codeAt` decodes to, or else DELIVER. -/
theorem stepRunsTheDecodedInstruction : Obligations.StepRunsTheDecodedInstruction := by
  refine ⟨fun s r rest i hp hq hd => ?_, fun s i hp hd => step_busy_of_decode hp hd,
    fun s => step_idle_no_offer, fun s => step_done⟩
  rw [step_idle_of_decode hp hq hd, State.dropOffer, hq, List.tail_cons]

/-! ### Steps as rules -/

@[simp] theorem writeIssue_opQ (cmd : List Byte) (s : State) : (writeIssue cmd s).opQ = s.opQ := by
  obtain ⟨-, -, heq⟩ | ⟨-, heq⟩ := writeIssue_cases cmd s <;> simp [heq]

@[simp] theorem command_writeIssue (cmd : List Byte) (s : State) :
    command (writeIssue cmd s) = command s := by
  obtain ⟨-, -, heq⟩ | ⟨-, heq⟩ := writeIssue_cases cmd s <;> simp [heq]

theorem withinRules_sendOnly {s : State} (hop : expectsReply s.opQ = false) :
    WithinRules 2 s (sendOnly (command s) s) := by
  have hanswer := withinRules_writeAnswer (writeIssue (command s) s)
  rw [command_writeIssue, writeIssue_opQ, hop] at hanswer
  exact (withinRules_writeIssue s).trans hanswer

theorem withinRules_sendAndReceive {s : State} (hop : expectsReply s.opQ = true) :
    WithinRules 4 s (sendAndReceive (command s) s) := by
  have hanswer := withinRules_writeAnswer (writeIssue (command s) s)
  rw [command_writeIssue, writeIssue_opQ, hop] at hanswer
  exact (((withinRules_writeIssue s).trans hanswer).trans (withinRules_readIssue _)).trans
    (withinRules_readAnswer _)

theorem WithinRules.mono {j k : Nat} {s t : State} (h : WithinRules j s t) (hle : j ≤ k) :
    WithinRules k s t := by
  obtain ⟨n, hn, heq⟩ := h
  exact ⟨n, hn.trans hle, heq⟩

theorem withinRules_transact (s : State) :
    WithinRules 5 s (transact (command s) (expectsReply s.opQ) s) := by
  cases hop : expectsReply s.opQ with
  | true => exact (withinRules_sendAndReceive hop).mono (by decide)
  | false => exact (withinRules_sendOnly hop).mono (by decide)

/-- Every step answers a next state, which at most five rules reach. -/
theorem exists_step_withinRules (s : State) : ∃ t, step s = .next t ∧ WithinRules 5 s t := by
  cases hp : s.phase with
  | idle =>
    cases hq : s.requests with
    | nil => exact ⟨s, step_idle_no_offer hp hq, .of_eq rfl⟩
    | cons r rest =>
      cases hop : Op.ofSelector r.op with
      | none =>
        exact ⟨_, step_reserved hp hq hop,
          (WithinRules.one (tick_reserved hp hq hop)).mono (by decide)⟩
      | some op => exact ⟨_, step_idle hp hq hop, withinRules_operate hp hq hop⟩
  | write => exact ⟨_, step_busy (.inl hp), withinRules_transact s⟩
  | read => exact ⟨_, step_busy (.inr hp), withinRules_transact s⟩
  | done => exact ⟨_, step_done hp, (WithinRules.one (tick_done hp)).mono (by decide)⟩

/-- Settles O32: in each phase the step is the rules of its transaction. -/
theorem stepIsAtMostFiveRules : Obligations.StepIsAtMostFiveRules := by
  intro s
  obtain ⟨t, hstep, n, hn, rfl⟩ := exists_step_withinRules s
  exact ⟨n, hn, hstep⟩

/-- Settles O31: a step is a number of rules, an instruction a transaction or an operation. -/
theorem stepAlwaysAnswersNext : Obligations.StepAlwaysAnswersNext := by
  refine ⟨fun s => ?_, fun i s => ?_⟩
  · obtain ⟨t, hstep, -⟩ := exists_step_withinRules s
    exact ⟨t, hstep⟩
  · cases hwire : i.isWire with
    | true => exact ⟨_, exec_wire hwire s⟩
    | false =>
      obtain ⟨op, arg, rfl⟩ := exists_eq_opInstr hwire
      exact ⟨_, exec_opInstr op arg s⟩

/-! ### R73, R75: calls are issued once -/

@[simp] theorem writeAnswer_calls (cmd : List Byte) (reply : Bool) (s : State) :
    (writeAnswer cmd reply s).calls = s.calls := by
  obtain ⟨-, heq⟩ | ⟨-, -, a, rest, -, -, heq⟩ | ⟨-, -, rest, -, heq⟩ := writeAnswer_cases cmd reply s
  · rw [heq]
  · simp [heq, afterSent]
  · cases reply <;> simp [heq]

@[simp] theorem readAnswer_calls (s : State) : (readAnswer s).calls = s.calls := by
  obtain ⟨-, heq⟩ | ⟨-, -, r, rest, -, -, heq⟩ | ⟨-, -, b0, b1, rest, -, heq⟩ := readAnswer_cases s <;>
    simp [heq]

theorem tick_write_issue {s : State} (hp : s.phase = .write) (ho : s.outstanding = false) :
    tick s = s.issue (.write (command s)) := by
  simp [tick, writeIssue, hp, ho]

theorem tick_read_issue {s : State} (hp : s.phase = .read) (ho : s.outstanding = false) :
    tick s = s.issue (.read 2) := by
  simp [tick, readIssue, hp, ho, Config.replyLen]

/-- Settles O19: with no call out the rule is the issue, with one out it is the answer, which makes none. -/
theorem callsAreIssuedWholeAndOnce : Obligations.CallsAreIssuedWholeAndOnce := by
  refine ⟨fun s => tick_write_issue, fun s => tick_read_issue, fun s ho hp => ?_⟩
  obtain hp | hp := hp
  · rw [tick_write_outstanding hp ho, writeAnswer_calls]
  · rw [tick_read_outstanding hp ho, readAnswer_calls]

/-! ### R38: what a read takes from RX -/

@[simp] theorem writeIssue_rx (cmd : List Byte) (s : State) : (writeIssue cmd s).rx = s.rx := by
  obtain ⟨-, -, heq⟩ | ⟨-, heq⟩ := writeIssue_cases cmd s <;> simp [heq]

@[simp] theorem writeAnswer_rx (cmd : List Byte) (reply : Bool) (s : State) :
    (writeAnswer cmd reply s).rx = s.rx := by
  obtain ⟨-, heq⟩ | ⟨-, -, a, rest, -, -, heq⟩ | ⟨-, -, rest, -, heq⟩ := writeAnswer_cases cmd reply s
  · rw [heq]
  · simp [heq, afterSent]
  · cases reply <;> simp [heq]

@[simp] theorem deliver_rx (s : State) : (deliver s).rx = s.rx := by
  obtain ⟨-, -, heq⟩ | ⟨-, heq⟩ := deliver_cases s <;> simp [heq]

/-- Whatever the read's answer, its count leaves the head of RX. -/
theorem readAnswer_rx {s : State} {r : ReadAnswer} {ra : List ReadAnswer} (hp : s.phase = .read)
    (ho : s.outstanding = true) (ha : s.rxAnswers = r :: ra) :
    (readAnswer s).rx = s.rx.drop (takenCount s.draws r) := by
  by_cases hr : ∃ b0 b1, r = .ok 2 [b0, b1]
  · obtain ⟨b0, b1, rfl⟩ := hr
    rw [readAnswer_reply hp ho ha]
    rfl
  · rw [readAnswer_failed hp ho ha fun b0 b1 h => hr ⟨b0, b1, h⟩]
    rfl

theorem tick_rx_of_ne_read {s : State} (hp : s.phase ≠ .read) : (tick s).rx = s.rx := by
  cases hphase : s.phase with
  | idle =>
    cases hq : s.requests with
    | nil => simp [tick, hphase, hq]
    | cons r rest =>
      cases hop : Op.ofSelector r.op with
      | none => simp [tick_reserved hphase hq hop]
      | some op => simp [tick_accept hphase hq hop]
  | write => cases ho : s.outstanding <;> simp [tick, hphase, ho]
  | read => exact absurd hphase hp
  | done => rw [tick_done hphase, deliver_rx]

/-- Settles O23: only READ-ANSWER takes bytes, as many as its answer says. -/
theorem readsConsumeTheHeadOfRx : Obligations.ReadsConsumeTheHeadOfRx := by
  refine ⟨fun s k data ra hp ho ha => ?_, fun s ra hp ho ha => ?_, fun s => tick_rx_of_ne_read⟩
  · rw [tick_read_outstanding hp ho, readAnswer_rx hp ho ha]
    rfl
  · rw [tick_read_outstanding hp ho, readAnswer_rx hp ho ha]
    exact ⟨_, takenCount_ioErr_le s.draws, rfl⟩

/-! ### R77: a call without an answer -/

theorem Unanswered.step {s : State} (h : Unanswered s) : step s = .next s := by
  obtain ⟨t, hstep, n, -, hn⟩ := exists_step_withinRules s
  rw [ticks_of_tick_eq_self h.tick] at hn
  rw [hstep, hn]

/-- Settles O24: no rule is enabled, and what the host and the device change no rule in WRITE or READ reads. -/
theorem unansweredCallIsStuck : Obligations.UnansweredCallIsStuck := by
  intro s h
  refine ⟨ticks_of_tick_eq_self h.tick, h.step, fun e t he ht => ?_⟩
  cases e with
  | offer | ready | arrive =>
    cases ht
    exact ⟨h, rfl, rfl, rfl⟩
  | answerWrite | answerRead | reset => cases he

/-! ### Section 6: the request port outside IDLE -/

theorem ignoresHost_transact (cmd : List Byte) (reply : Bool) : IgnoresHost (transact cmd reply) := by
  cases reply with
  | true => exact ignoresHost_sendAndReceive cmd
  | false => exact ignoresHost_sendOnly cmd

theorem step_withHostOf_of_busy {s t : State} (hp : s.phase = .write ∨ s.phase = .read)
    (ht : step s = .next t) (h : State) : step (s.withHostOf h) = .next (t.withHostOf h) := by
  rw [step_busy hp, Host.Outcome.next.injEq] at ht
  rw [step_busy (s := s.withHostOf h) hp, command_withHostOf, State.withHostOf_opQ,
    ignoresHost_transact, ht]

theorem step_sameHostSide_of_busy {s t : State} (hp : s.phase = .write ∨ s.phase = .read)
    (ht : step s = .next t) : sameHostSide s t := by
  obtain ⟨i, hi⟩ := exists_exec_of_step_busy hp ht
  exact exec_sameHostSide hi

theorem deliver_with_requests (s : State) (offers : List Request) :
    deliver { s with requests := offers } = { deliver s with requests := offers } := by
  by_cases hready : s.phase = .done ∧ s.resReady = true
  · rw [deliver, deliver, if_pos hready, if_pos hready]
    rfl
  · rw [deliver, deliver, if_neg hready, if_neg hready]

/-- Settles O51: a busy SPED's transaction ignores the host's side, and DELIVER the offers. -/
theorem latchedOperationIgnoresTheRequestPort : Obligations.LatchedOperationIgnoresTheRequestPort := by
  intro s t offers hidle ht
  obtain hbusy | hdone := write_or_read_or_done hidle
  · obtain ⟨-, hready, hrec, href⟩ := step_sameHostSide_of_busy hbusy ht
    have hstep := step_withHostOf_of_busy hbusy ht { s with requests := offers }
    rw [State.withHostOf, State.withHostOf] at hstep
    simpa only [hready, hrec, href] using hstep
  · rw [step_done hdone, Host.Outcome.next.injEq] at ht
    rw [step_done (s := { s with requests := offers }) hdone, deliver_with_requests, ht]

/-! ### R130, R131: reset -/

/-- Settles O17: nothing is offered at reset, and the rule for an offered operation is ACCEPT. -/
theorem resetIsIdleAndWaitsForAnOffer : Obligations.ResetIsIdleAndWaitsForAnOffer := by
  refine ⟨rfl, rfl, step_idle_no_offer rfl rfl, fun op arg => ?_⟩
  rw [tick_accept rfl rfl (ofSelector_selector op), State.latch_phase]

/-- Settles O28: the reset event writes SPED's registers only, and is refused outside IDLE. -/
theorem resetReachesNothingOutside : Obligations.ResetReachesNothingOutside := by
  refine ⟨fun s hp => ⟨_, if_pos hp, rfl, rfl, ?_, ?_⟩, fun s hp => if_neg ?_⟩
  · exact ⟨rfl, rfl, rfl, rfl, rfl⟩
  · exact ⟨rfl, rfl, rfl, rfl⟩
  · obtain hp | hp | hp := hp <;> simp [hp]

/-! ### Placed words -/

theorem s16_ofNat {m : Nat} (hm : m < 4096) : s16 (BitVec.ofNat 16 m) = m := by
  have hid := s16_ofInt (v := m) (by omega) (by omega)
  rwa [BitVec.ofInt_natCast] at hid

/-- R60, "emitted by": the operation an encodable wire command is emitted by emits exactly it. -/
theorem exists_emitter {i : Instr} (hwire : i.isWire = true) (hwf : i.wellFormed = true) :
    ∃ op arg, emitter i = some (op, arg) ∧ encode i = .wire (commandBytes op arg) := by
  cases i with
  | exitSafeStart => exact ⟨_, _, rfl, rfl⟩
  | readVar id => exact ⟨_, _, rfl, by simp [commandBytes, encode]⟩
  | setSpeedFwd m =>
    have hs := s16_ofNat (of_decide_eq_true hwf)
    refine ⟨_, _, rfl, ?_⟩
    rw [commandBytes_setspd_of_nonneg (by omega), magnitude, hs]
    rfl
  | setSpeedRev m =>
    have hm : m < 4096 := of_decide_eq_true hwf
    refine ⟨_, _, rfl, ?_⟩
    by_cases hzero : m = 0
    · subst hzero
      decide
    · have hs : s16 (BitVec.ofInt 16 (-(m : Int))) = -m := s16_ofInt (by omega) (by omega)
      rw [if_neg hzero, commandBytes_setspd_of_neg (by omega), magnitude, hs, Int.natAbs_neg]
      rfl
  | getvar | getspd | geterr | exitss | setspd => cases hwire

theorem placeCode_wire {bytes : List Byte} {i : Instr} {op : Op} {arg : Half}
    (hd : decode (.wire bytes) = .ok i) (he : emitter i = some (op, arg)) (s : State) :
    placeCode (.wire bytes) s = s.latch op arg := by
  simp [placeCode, hd, he]

/-- Settles O30: a request is offered to an idle SPED; a command is latched with an operation that emits it. -/
theorem placedWordIsRunNext : Obligations.PlacedWordIsRunNext := by
  intro s nbits w i h
  obtain ⟨c, hc, hd⟩ := decodeTableWord_eq_some_iff.mp h
  have hplace : s.withFetchWord nbits w = placeCode c s := by
    rw [State.withFetchWord, placeWord, hc]
  rw [hplace]
  cases c with
  | request r =>
    obtain ⟨op, hop, rfl⟩ := exists_op_of_decode_request hd
    exact ⟨_, step_idle_of_decode rfl rfl hd, ⟨rfl, rfl, rfl, rfl, rfl⟩, ⟨rfl, rfl, rfl, rfl⟩,
      fun _ => rfl, by simp⟩
  | wire bytes =>
    obtain ⟨⟨hwire, hwf⟩, hbytes⟩ := encode_of_decode_wire hd
    obtain ⟨op, arg, he, hcmd⟩ := exists_emitter hwire hwf
    have hdecode : decode (.wire (command (s.latch op arg))) = .ok i := by
      rw [command_latch, ← hcmd, hbytes]
      exact hd
    rw [placeCode_wire hd he]
    exact ⟨_, step_busy_of_decode (.inl rfl) hdecode, ⟨rfl, rfl, rfl, rfl, rfl⟩,
      ⟨rfl, rfl, rfl, rfl⟩, by simp [hwire], fun _ => ⟨rfl, rfl, hcmd⟩⟩

end Sys2Proof.Machine
end

section
/-! The sequencer's invariant (spec/10_state.md section 7, 40_transaction.md sections 2 and 3): what each record
update needs to establish it, then the rules, the steps and the environment. -/

namespace Sys2Proof.Machine

/-! ### R79: the record of calls -/

theorem callsOrdered_append_write (prev : Option (List Byte)) (cs : List Call) (cmd : List Byte)
    (rest : List Call) :
    callsOrdered prev (cs ++ .write cmd :: rest) =
      (callsOrdered prev cs && isCommand cmd && callsOrdered (some cmd) rest) := by
  induction cs generalizing prev with
  | nil => simp [callsOrdered]
  | cons c cs ih => cases c <;> simp [callsOrdered, ih, Bool.and_assoc]

theorem isReadCommand_of_decode {bytes : List Byte} {i : Instr} (hd : decode (.wire bytes) = .ok i) :
    isReadCommand bytes = readsReply i := by
  rw [isReadCommand, hd]
  cases i <;> rfl

@[simp] theorem isCommand_command (s : State) : isCommand (command s) = true := by
  simp [isCommand, command]

@[simp] theorem isReadCommand_command (s : State) :
    isReadCommand (command s) = expectsReply s.opQ := by
  rw [command, isReadCommand_of_decode (decode_commandBytes s.opQ s.argQ), readsReply_commandInstr]

theorem callsOrdered_issue_write {s : State} (h : callsOrdered none s.calls = true) :
    callsOrdered none (s.calls ++ [.write (command s)]) = true := by
  rw [callsOrdered_append_write, h, isCommand_command]
  rfl

/-- A read may follow the READ_VAR that is last on record. -/
theorem callsOrdered_issue_read {s : State} (h : callsOrdered none s.calls = true)
    (hlast : s.calls.getLast? = some (.write (command s))) (hop : expectsReply s.opQ = true) :
    callsOrdered none (s.calls ++ [.read 2]) = true := by
  obtain ⟨cs, hcs⟩ := List.getLast?_eq_some_iff.mp hlast
  rw [hcs, callsOrdered_append_write] at h
  rw [hcs, List.append_assoc, List.singleton_append, callsOrdered_append_write]
  simpa [callsOrdered, hop, Config.replyLen] using h

/-! ### What each record update needs -/

/-- The invariant speaks of SPED's registers and the record of calls only. -/
theorem SequencerInv.congr {s t : State} (h : SequencerInv s) (hreg : sameRegisters s t)
    (hcalls : t.calls = s.calls) : SequencerInv t := by
  obtain ⟨hphase, hop, harg, hrsp, herr, hval, hout⟩ := hreg
  have hcmd : command t = command s := by rw [command, hop, harg, command]
  constructor
  · rw [hout, hphase]; exact h.call_only_when_busy
  · rw [hphase, hop]; exact h.read_is_expected
  · rw [hphase, herr, hop, hval]; exact h.posted_success
  · rw [hphase, herr, hop, hval, hrsp]; exact h.posted_value
  · rw [hcalls]; exact h.calls_in_order
  · rw [hphase, hout, hcalls, hcmd]; exact h.write_in_record
  · rw [hphase, hout, hcalls, hcmd]; exact h.write_before_read
  · rw [hphase, hout, hcalls]; exact h.read_in_record

section
variable {s : State}

theorem sequencerInv_idle (hp : s.phase = .idle) (ho : s.outstanding = false)
    (h : callsOrdered none s.calls = true) : SequencerInv s := by
  constructor <;> simp [hp, ho, h]

theorem sequencerInv_latch (h : callsOrdered none s.calls = true) (op : Op) (arg : Half) :
    SequencerInv (s.latch op arg) := by
  constructor <;> simp [h]

theorem sequencerInv_postError (h : callsOrdered none s.calls = true) : SequencerInv s.postError := by
  constructor <;> simp [h]

/-- R74, R76: a success may be posted with the value its operation calls for. -/
theorem sequencerInv_postOk (h : callsOrdered none s.calls = true) {v : Half}
    (hsent : expectsReply s.opQ = false → v = Config.success)
    (hreply : expectsReply s.opQ = true → v = u16 s.rsp.1 s.rsp.2) : SequencerInv (s.postOk v) := by
  constructor
  case posted_success => exact fun _ _ => hsent
  case posted_value => exact fun _ _ => hreply
  all_goals simp [h]

theorem SequencerInv.issue_write (h : SequencerInv s) (hp : s.phase = .write) :
    SequencerInv (s.issue (.write (command s))) := by
  have hcalls := callsOrdered_issue_write h.calls_in_order
  constructor <;> simp [hp, hcalls]

theorem SequencerInv.issue_read (h : SequencerInv s) (hp : s.phase = .read)
    (ho : s.outstanding = false) : SequencerInv (s.issue (.read 2)) := by
  have hop := h.read_is_expected hp
  have hcalls := callsOrdered_issue_read h.calls_in_order (h.write_before_read hp ho) hop
  constructor <;> simp [hp, hop, hcalls, Config.replyLen]

theorem SequencerInv.enterRead (h : SequencerInv s) (hp : s.phase = .write)
    (ho : s.outstanding = true) (hop : expectsReply s.opQ = true) : SequencerInv s.enterRead := by
  have hlast := h.write_in_record hp ho
  have hcalls := h.calls_in_order
  constructor <;> simp [hop, hcalls, hlast]

/-- No call is outstanding in IDLE and DONE. -/
theorem SequencerInv.outstanding_eq_false (h : SequencerInv s) (hp : s.phase = .idle ∨ s.phase = .done) :
    s.outstanding = false := by
  rw [← Bool.not_eq_true]
  intro ho
  obtain hbusy | hbusy := h.call_only_when_busy ho <;> simp [hbusy] at hp

end

/-! ### The rules -/

section
variable {s : State} (h : SequencerInv s)
include h

theorem SequencerInv.writeAnswer :
    SequencerInv (writeAnswer (command s) (expectsReply s.opQ) s) := by
  obtain ⟨-, heq⟩ | ⟨-, -, a, rest, -, -, heq⟩ | ⟨hp, ho, rest, -, heq⟩ :=
    writeAnswer_cases (command s) (expectsReply s.opQ) s
  · rwa [heq]
  · rw [heq]
    exact sequencerInv_postError (s := afterSent _ a rest s) h.calls_in_order
  · rw [heq]
    cases hop : expectsReply s.opQ with
    | true =>
      have hsent : SequencerInv (s.transmit (command s) rest) :=
        h.congr ⟨rfl, rfl, rfl, rfl, rfl, rfl, rfl⟩ rfl
      exact hsent.enterRead hp ho hop
    | false =>
      exact sequencerInv_postOk (s := s.transmit _ rest) h.calls_in_order (fun _ => rfl)
        (fun hreply => by simp [hop] at hreply)

theorem SequencerInv.readAnswer : SequencerInv (readAnswer s) := by
  obtain ⟨-, heq⟩ | ⟨-, -, r, rest, -, -, heq⟩ | ⟨hp, -, b0, b1, rest, -, heq⟩ := readAnswer_cases s
  · rwa [heq]
  · rw [heq]
    exact sequencerInv_postError (s := (s.consume _ rest).setRsp _) h.calls_in_order
  · have hop := h.read_is_expected hp
    rw [heq]
    exact sequencerInv_postOk (s := (s.consume 2 rest).setRsp (b0, b1)) h.calls_in_order
      (fun hsent => by simp [hop] at hsent) (fun _ => rfl)

theorem SequencerInv.deliver : SequencerInv (deliver s) := by
  obtain ⟨hp, -, heq⟩ | ⟨-, heq⟩ := deliver_cases s
  · rw [heq]
    exact sequencerInv_idle rfl (h.outstanding_eq_false (.inr hp)) h.calls_in_order
  · rwa [heq]

theorem SequencerInv.tick : SequencerInv (tick s) := by
  cases hp : s.phase with
  | idle =>
    cases hq : s.requests with
    | nil => simpa [Machine.tick, hp, hq] using h
    | cons r rest =>
      cases hop : Op.ofSelector r.op with
      | none =>
        rw [tick_reserved hp hq hop]
        exact h.congr ⟨rfl, rfl, rfl, rfl, rfl, rfl, rfl⟩ rfl
      | some op =>
        rw [tick_accept hp hq hop]
        exact sequencerInv_latch (s := s.dropOffer) h.calls_in_order op r.arg
  | write =>
    cases ho : s.outstanding with
    | false =>
      rw [tick_write_issue hp ho]
      exact h.issue_write hp
    | true =>
      rw [tick_write_outstanding hp ho]
      exact h.writeAnswer
  | read =>
    cases ho : s.outstanding with
    | false =>
      rw [tick_read_issue hp ho]
      exact h.issue_read hp ho
    | true =>
      rw [tick_read_outstanding hp ho]
      exact h.readAnswer
  | done =>
    rw [tick_done hp]
    exact h.deliver

end

theorem SequencerInv.ticks {s : State} (h : SequencerInv s) (n : Nat) : SequencerInv (ticks n s) := by
  induction n generalizing s with
  | zero => exact h
  | succ n ih => exact ih h.tick

/-- Settles O57: IDLE with no call outstanding and none on record. -/
theorem resetMeetsTheInvariant : Obligations.ResetMeetsTheInvariant := sequencerInv_idle rfl rfl rfl

/-- Settles O59: by the rule each phase enables. -/
theorem ruleKeepsTheInvariant : Obligations.RuleKeepsTheInvariant := fun _ h => h.tick

/-- Settles O58: a step is a number of rules, and each keeps the invariant. -/
theorem stepKeepsTheInvariant : Obligations.StepKeepsTheInvariant := by
  intro s t h ht
  obtain ⟨t', hstep, n, -, hn⟩ := exists_step_withinRules s
  obtain rfl : t' = t := Host.Outcome.next.inj (hstep.symm.trans ht)
  rw [← hn]
  exact h.ticks n

/-- Settles O60: only reset reaches the registers, and it ends in IDLE with no call outstanding. -/
theorem eventKeepsTheInvariant : Obligations.EventKeepsTheInvariant := by
  intro s t e h ht
  cases e with
  | offer | ready | answerWrite | answerRead | arrive =>
    cases ht
    exact h.congr ⟨rfl, rfl, rfl, rfl, rfl, rfl, rfl⟩ rfl
  | reset =>
    by_cases hp : s.phase = .idle
    · rw [applyEvent, resetEvent, if_pos hp] at ht
      cases ht
      exact sequencerInv_idle rfl rfl h.calls_in_order
    · rw [applyEvent, resetEvent, if_neg hp] at ht
      cases ht

end Sys2Proof.Machine
end

section
/-! What a host operation from IDLE ends in (spec/40_transaction.md section 1, 41_variable_read.md,
42_exit_safe_start.md, 43_set_speed.md, 60_exceptions.md): the calls and the result by the cases of `Run`, the state
itself by the equations for `operate`. -/

namespace Sys2Proof.Machine

/-! ### The cases of `Run` -/

/-- R70, case by case: what `Run(op, arg)` gives on the two answers. -/
inductive RunCase (op : Op) (arg : Half) :
    Option WriteAnswer → Option ReadAnswer → Option Result × List Call → Prop
  | writeUnanswered (r : Option ReadAnswer) : RunCase op arg none r (none, [.write (commandBytes op arg)])
  | writeFailed (r : Option ReadAnswer) {a : WriteAnswer} (hne : a ≠ .ok (commandBytes op arg).length) :
      RunCase op arg (some a) r (some .serialError, [.write (commandBytes op arg)])
  | sent (r : Option ReadAnswer) (hop : expectsReply op = false) :
      RunCase op arg (some (.ok (commandBytes op arg).length)) r
        (some (.ok 0), [.write (commandBytes op arg)])
  | readUnanswered (hop : expectsReply op = true) :
      RunCase op arg (some (.ok (commandBytes op arg).length)) none
        (none, [.write (commandBytes op arg), .read 2])
  | readFailed (hop : expectsReply op = true) {r : ReadAnswer} (hr : ∀ b0 b1, r ≠ .ok 2 [b0, b1]) :
      RunCase op arg (some (.ok (commandBytes op arg).length)) (some r)
        (some .serialError, [.write (commandBytes op arg), .read 2])
  | replied (hop : expectsReply op = true) (b0 b1 : Byte) :
      RunCase op arg (some (.ok (commandBytes op arg).length)) (some (.ok 2 [b0, b1]))
        (some (.ok (reading op (u16 b0 b1))), [.write (commandBytes op arg), .read 2])

theorem run_case (op : Op) (arg : Half) (a : Option WriteAnswer) (r : Option ReadAnswer) :
    RunCase op arg a r (run op arg a r) := by
  cases a with
  | none => exact .writeUnanswered r
  | some a =>
    by_cases hk : a = .ok (commandBytes op arg).length
    · subst hk
      cases hop : expectsReply op with
      | false =>
        rw [run_sent op arg r hop]
        exact .sent r hop
      | true =>
        cases r with
        | none =>
          rw [run_reply_unanswered op arg hop]
          exact .readUnanswered hop
        | some r =>
          by_cases hr : ∃ b0 b1, r = .ok 2 [b0, b1]
          · obtain ⟨b0, b1, rfl⟩ := hr
            rw [run_reply op arg hop]
            exact .replied hop b0 b1
          · have hbad : ∀ b0 b1, r ≠ .ok 2 [b0, b1] := fun b0 b1 h => hr ⟨b0, b1, h⟩
            rw [run_read_failed op arg hop hbad]
            exact .readFailed hop hbad
    · rw [run_write_failed op arg r hk]
      exact .writeFailed r hk

section
variable {op : Op} {arg : Half} {a : Option WriteAnswer} {r : Option ReadAnswer}
  {o : Option Result × List Call}

/-- R79: the read is made exactly where a reply is due and the write went out in full. -/
theorem RunCase.calls (h : RunCase op arg a r o) :
    o.2 = if expectsReply op = true ∧ a = some (.ok (commandBytes op arg).length) then
      [.write (commandBytes op arg), .read 2] else [.write (commandBytes op arg)] := by
  cases h with
  | writeUnanswered => simp
  | writeFailed _ hne => simp [hne]
  | sent _ hop => simp [hop]
  | readUnanswered hop | readFailed hop | replied hop => simp [hop]

/-- R110: `Run` succeeds exactly when the transport answered in full. -/
theorem RunCase.ok_iff (h : RunCase op arg a r o) :
    (∃ v, o.1 = some (.ok v)) ↔ a = some (.ok (commandBytes op arg).length) ∧
      (expectsReply op = true → ∃ b0 b1, r = some (.ok 2 [b0, b1])) := by
  cases h with
  | writeUnanswered => simp
  | writeFailed _ hne => simp [hne]
  | sent _ hop => simp [hop]
  | readUnanswered hop => simp [hop]
  | readFailed hop hr => simp [hop, hr]
  | replied hop => simp [hop]

end

/-- Settles O34: `operate` stops as `Run` does. -/
theorem hostOperationIsRun : Obligations.HostOperationIsRun := by
  intro s op arg hp
  have hrun := operate_stopsAsRun hp op arg
  refine ⟨_, exec_opInstr op arg s, hrun.calls, fun res hres => ⟨?_, hrun.result res hres⟩,
    hrun.unanswered⟩
  rw [hrun.phase, hres, stopPhase]

theorem expectsReply_iff {op : Op} :
    expectsReply op = true ↔ op = .getvar ∨ op = .getspd ∨ op = .geterr := by
  cases op <;> simp [expectsReply]

theorem madeCalls_iff_of_madeCalls {s t : State} {cs ds : List Call} (h : MadeCalls s t cs) :
    MadeCalls s t ds ↔ cs = ds := by
  rw [MadeCalls] at h ⊢
  rw [h, List.append_cancel_left_eq]

/-- Settles O48: the calls made are `Run`'s. -/
theorem callCountsPerOperation : Obligations.CallCountsPerOperation := by
  intro s t op arg hp ht
  have hrun := operate_stopsAsRun hp op arg
  rw [exec_opInstr, Host.Outcome.next.injEq] at ht
  rw [ht] at hrun
  have hcalls := (run_case op arg s.txAnswers.head? s.rxAnswers.head?).calls
  simp only [madeCalls_iff_of_madeCalls hrun.calls, hcalls, ← expectsReply_iff]
  by_cases hread : expectsReply op = true ∧
      s.txAnswers.head? = some (.ok (commandBytes op arg).length)
  · rw [if_pos hread]
    exact ⟨.inr rfl, iff_of_true rfl hread⟩
  · rw [if_neg hread]
    exact ⟨.inl rfl, iff_of_false (by simp) hread⟩

theorem resErr_eq_false_iff {op : Op} {e : Bool} {v : Half} {o : Option Result}
    (h : o = some (portResult op e v)) : e = false ↔ ∃ x, o = some (.ok x) := by
  cases e <;> simp [h, portResult]

/-- Settles O49: `res_err` says whether `Run`'s result is a value. -/
theorem errorExactlyOnTransportFailure : Obligations.ErrorExactlyOnTransportFailure := by
  intro s t op arg hp ht hdone
  have hrun := operate_stopsAsRun hp op arg
  rw [exec_opInstr, Host.Outcome.next.injEq] at ht
  rw [ht] at hrun
  obtain ⟨res, hres⟩ := eq_some_of_stopPhase_eq_done (hrun.phase.symm.trans hdone)
  rw [resErr_eq_false_iff (hres.trans (congrArg some (hrun.result res hres).symm))]
  exact (run_case op arg _ _).ok_iff

/-! ### Completion -/

theorem commandBytes_getvar (x id : Byte) : commandBytes .getvar (x ++ id) = [0xA1#8, id] := by
  simp [commandBytes, Config.opcReadVar]

theorem length_commandBytes_of_reply {op : Op} (arg : Half) (hop : expectsReply op = true) :
    (commandBytes op arg).length = 2 := by
  cases op with
  | getvar | getspd | geterr => rfl
  | exitss | setspd => cases hop

section
variable {s : State} {op : Op} {arg : Half} {ta : List WriteAnswer} (hp : s.phase = .idle)
include hp

/-- R71 to R76: the state a variable read ends in when both calls are answered in full. -/
theorem operate_replied {b0 b1 : Byte} {ra : List ReadAnswer} (hop : expectsReply op = true)
    (ha : s.txAnswers = .ok 2 :: ta) (hr : s.rxAnswers = .ok 2 [b0, b1] :: ra) :
    operate op arg s =
      { s with phase := .done, opQ := op, argQ := arg, rsp := (b0, b1), resErr := false,
               resVal := u16 b0 b1, outstanding := false, tx := s.tx ++ commandBytes op arg,
               rx := s.rx.drop 2, calls := s.calls ++ [.write (commandBytes op arg), .read 2],
               txAnswers := ta, rxAnswers := ra } := by
  rw [← length_commandBytes_of_reply arg hop] at ha
  rw [operate_reply hp op arg hop ha, readAnswer_reply (s := s.readOut op arg ta) rfl rfl hr,
    ← State.readOut_calls]
  rfl

/-- R71 to R74: the state an operation without a reply ends in when its command went out in full. -/
theorem operate_sent_eq (hop : expectsReply op = false)
    (ha : s.txAnswers = .ok (commandBytes op arg).length :: ta) :
    operate op arg s =
      { s with phase := .done, opQ := op, argQ := arg, resErr := false, resVal := 0x0000#16,
               outstanding := false, tx := s.tx ++ commandBytes op arg,
               calls := s.calls ++ [.write (commandBytes op arg)], txAnswers := ta } := by
  rw [operate_sent hp op arg hop ha]
  rfl

end

/-- The unsigned result of a variable read. -/
theorem toNat_u16_cast (b0 b1 : Byte) : ((u16 b0 b1).toNat : Int) = b0.toNat + 256 * b1.toNat := by
  rw [u16_toNat]
  push_cast
  rfl

/-- The signed result of a variable read. -/
theorem s16_u16 (b0 b1 : Byte) :
    s16 (u16 b0 b1) = if b0.toNat + 256 * b1.toNat ≤ 32767 then ((b0.toNat + 256 * b1.toNat : Nat) : Int)
      else ((b0.toNat + 256 * b1.toNat : Nat) : Int) - 65536 := by
  rw [s16, u16_toNat]

/-- Settles O35: the command is `A1` and the id, whatever the ignored byte. -/
theorem getvarReturnsTheReply : Obligations.GetvarReturnsTheReply := by
  intro s ignored id b0 b1 ta ra hp ha hr
  refine ⟨?_, congrArg Result.ok (toNat_u16_cast b0 b1)⟩
  rw [exec, execGetvar, operate_replied hp rfl ha hr, commandBytes_getvar]
  rfl

/-- Settles O36: the bits are GETVAR's, and the result is their signed reading. -/
theorem getspdReturnsTheSignedReply : Obligations.GetspdReturnsTheSignedReply := by
  intro s ignored b0 b1 ta ra hp ha hr
  refine ⟨?_, congrArg Result.ok (s16_u16 b0 b1)⟩
  rw [exec, execGetspd, operate_replied hp rfl ha hr]
  rfl

/-- Settles O37: the bits are read as they came. -/
theorem geterrReturnsTheReply : Obligations.GeterrReturnsTheReply := by
  intro s ignored b0 b1 ta ra hp ha hr
  refine ⟨?_, congrArg Result.ok (toNat_u16_cast b0 b1)⟩
  rw [exec, execGeterr, operate_replied hp rfl ha hr]
  rfl

/-- Settles O38: no reply is due, so the write's answer ends the operation. -/
theorem exitssSucceedsWhenItsByteIsSent : Obligations.ExitssSucceedsWhenItsByteIsSent := by
  intro s ignored ta hp ha
  refine ⟨?_, rfl⟩
  rw [exec, execExitss, operate_sent_eq (op := .exitss) (arg := ignored) hp rfl ha]
  rfl

/-- Settles O39: for every operand the command is the opcode of the sign and the two fields. -/
theorem setspdSucceedsWhenItsBytesAreSent : Obligations.SetspdSucceedsWhenItsBytesAreSent := by
  intro s speed ta hp ha
  have hlen : (commandBytes .setspd speed).length = 3 := by rw [commandBytes_setspd]; rfl
  refine ⟨?_, rfl⟩
  rw [← hlen] at ha
  rw [exec, execSetspd, operate_sent_eq hp rfl ha, commandBytes_setspd]
  rfl

/-! ### Failure -/

/-- Settles O43: the error is posted at the write's answer, with the command's first bytes in TX. -/
theorem failedWriteEndsTheOperation : Obligations.FailedWriteEndsTheOperation := by
  intro s op arg a ta hp ha hne
  obtain ⟨k, hk, hsent⟩ := sentBytes_prefix (commandBytes op arg) s.draws a
  refine ⟨_, exec_opInstr op arg s, ?_⟩
  rw [operate_write_failed hp op arg ha hne]
  exact ⟨rfl, rfl, rfl, rfl, rfl, rfl, rfl, ⟨k, hk, congrArg (s.tx ++ ·) hsent⟩, rfl, rfl, rfl,
    rfl, rfl, rfl, rfl⟩

/-- R38: what a read leaves of RX, by its answer. -/
theorem drop_takenCount (draw : Nat) (rx : List Byte) (r : ReadAnswer) :
    (∀ k data, r = .ok k data → rx.drop (takenCount draw r) = rx.drop k) ∧
      (r = .ioErr → ∃ k ≤ 2, rx.drop (takenCount draw r) = rx.drop k) := by
  refine ⟨fun k data hk => by rw [hk, takenCount], fun hio => ⟨_, ?_, rfl⟩⟩
  rw [hio]
  exact takenCount_ioErr_le draw

/-- Settles O44: the error is posted at the read's answer, after its count left RX. -/
theorem failedReadEndsTheOperation : Obligations.FailedReadEndsTheOperation := by
  intro s op arg r ta ra hp hop ha hr hbad
  rw [← length_commandBytes_of_reply arg hop] at ha
  refine ⟨_, exec_opInstr op arg s, ?_⟩
  rw [operate_reply hp op arg hop ha,
    readAnswer_failed (s := s.readOut op arg ta) rfl rfl hr hbad]
  obtain ⟨hok, hio⟩ := drop_takenCount s.draws s.rx r
  exact ⟨rfl, rfl, rfl, rfl, rfl, State.readOut_calls, rfl, hok, hio, rfl, rfl, rfl, rfl, rfl, rfl⟩

/-! ### The streams -/

/-- Settles O54: a faithful answer is the head of RX, and nothing checks what it answers. -/
theorem replyIsTheHeadOfRxUnchecked : Obligations.ReplyIsTheHeadOfRxUnchecked := by
  intro s ignored id x y data rest ta ra hp ha hr hfaithful hrx
  obtain ⟨-, hdata⟩ := hfaithful 2 data rfl
  rw [hrx] at hdata
  obtain rfl : data = [x, y] := hdata
  refine ⟨_, rfl, ?_⟩
  rw [operate_replied hp rfl ha hr]
  exact ⟨rfl, congrArg (List.drop 2) hrx, congrArg Result.ok (toNat_u16_cast x y)⟩

@[simp] theorem readAnswer_tx (s : State) : (readAnswer s).tx = s.tx := by
  obtain ⟨-, heq⟩ | ⟨-, -, r, rest, -, -, heq⟩ | ⟨-, -, b0, b1, rest, -, heq⟩ := readAnswer_cases s <;>
    simp [heq]

/-- R37: a write answered by the exact count puts the whole command into TX, and nothing follows it. -/
theorem operate_tx_of_full_write {s : State} {op : Op} {arg : Half} {ta : List WriteAnswer}
    (hp : s.phase = .idle) (ha : s.txAnswers = .ok (commandBytes op arg).length :: ta) :
    (operate op arg s).tx = s.tx ++ commandBytes op arg := by
  cases hop : expectsReply op with
  | true =>
    rw [operate_reply hp op arg hop ha, readAnswer_tx]
    rfl
  | false =>
    rw [operate_sent hp op arg hop ha]
    rfl

/-- Settles O55: the command in TX is one more whole command. -/
theorem fullWritesKeepTxWhole : Obligations.FullWritesKeepTxWhole := by
  intro s op arg is ta hp htx ha
  obtain ⟨hcmds, hbytes⟩ := parseStream_ok_iff.mp htx
  refine ⟨_, commandInstr op arg, exec_opInstr op arg s, encode_commandInstr op arg,
    parseStream_ok_iff.mpr ⟨?_, ?_⟩⟩
  · exact List.forall_mem_append.mpr ⟨hcmds, List.forall_mem_singleton.mpr
      ⟨isWire_commandInstr op arg, wellFormed_commandInstr op arg⟩⟩
  · rw [operate_tx_of_full_write hp ha, streamBytes_append, hbytes, streamBytes_cons, bytes_commandInstr]
    exact congrArg (s.tx ++ ·) (List.append_nil _)

end Sys2Proof.Machine
end

section
/-! The wire commands (log 7; spec/30_encoding.md section 2, 40_transaction.md section 2): where the transaction of
a command stops, begun in each phase, with its first call out already or not. -/

namespace Sys2Proof.Machine

/-! ### A call that is out -/

/-- R73, R75: call `c` is out, made now if none was out before. -/
def State.callOut (c : Call) (s : State) : State :=
  { s with outstanding := true, calls := s.calls ++ if s.outstanding then [] else [c] }

theorem State.callOut_of_outstanding {s : State} (ho : s.outstanding = true) (c : Call) :
    s.callOut c = s := by
  rw [State.callOut, if_pos ho, List.append_nil, ← ho]

theorem State.callOut_of_not_outstanding {s : State} (ho : s.outstanding = false) (c : Call) :
    s.callOut c = s.issue c := by
  rw [State.callOut, ho]
  rfl

theorem writeIssue_write {s : State} (hp : s.phase = .write) (cmd : List Byte) :
    writeIssue cmd s = s.callOut (.write cmd) := by
  cases ho : s.outstanding with
  | true => simp [writeIssue, ho, State.callOut_of_outstanding ho]
  | false => simp [writeIssue, hp, ho, State.callOut_of_not_outstanding ho]

theorem readIssue_read {s : State} (hp : s.phase = .read) : readIssue s = s.callOut (.read 2) := by
  cases ho : s.outstanding with
  | true => simp [readIssue, ho, State.callOut_of_outstanding ho]
  | false => simp [readIssue, hp, ho, State.callOut_of_not_outstanding ho, Config.replyLen]

/-- R74, R75: the command went out in full, and the read call for its reply is out. -/
def State.replyDue (cmd : List Byte) (rest : List WriteAnswer) (s : State) : State :=
  (((s.callOut (.write cmd)).transmit cmd rest).enterRead).issue (.read 2)

theorem State.replyDue_calls (cmd : List Byte) (rest : List WriteAnswer) (s : State) :
    (s.replyDue cmd rest).calls =
      s.calls ++ if s.outstanding then [.read 2] else [.write cmd, .read 2] := by
  cases ho : s.outstanding <;> simp [State.replyDue, State.callOut, ho]

/-! ### Where a transaction stops -/

section
variable {cmd : List Byte} {reply : Bool} {s : State}

/-- Outside WRITE the rules of the write do nothing. -/
theorem write_rules_of_phase_ne_write (hp : s.phase ≠ .write) :
    writeAnswer cmd reply (writeIssue cmd s) = s := by
  simp [writeIssue, writeAnswer, hp]

theorem transact_idle_or_done (hp : s.phase = .idle ∨ s.phase = .done) :
    transact cmd reply s = s := by
  have hwrite : s.phase ≠ .write := by obtain hp | hp := hp <;> simp [hp]
  have hread : s.phase ≠ .read := by obtain hp | hp := hp <;> simp [hp]
  cases reply with
  | true =>
    exact (congrArg (readAnswer ∘ readIssue) (write_rules_of_phase_ne_write hwrite)).trans
      (read_rules_of_phase_ne_read hread)
  | false => exact write_rules_of_phase_ne_write hwrite

/-- In READ a transaction without a reply has nothing left to do. -/
theorem transact_read_without_reply (hp : s.phase = .read) : transact cmd false s = s :=
  write_rules_of_phase_ne_write (by simp [hp])

/-- In READ a transaction with a reply goes on with the read. -/
theorem transact_read_with_reply (hp : s.phase = .read) :
    transact cmd true s = readAnswer (s.callOut (.read 2)) := by
  rw [← readIssue_read hp]
  exact congrArg (readAnswer ∘ readIssue) (write_rules_of_phase_ne_write (by simp [hp]))

section
variable (hp : s.phase = .write)
include hp

/-- In WRITE, what the write's answer leaves outside READ is where the transaction stops. -/
theorem transact_write_of_phase_ne_read {t : State}
    (ht : writeAnswer cmd reply (s.callOut (.write cmd)) = t) (hread : t.phase ≠ .read) :
    transact cmd reply s = t := by
  rw [← writeIssue_write hp] at ht
  cases reply with
  | true => exact (congrArg (readAnswer ∘ readIssue) ht).trans (read_rules_of_phase_ne_read hread)
  | false => exact ht

theorem transact_write_unanswered (ha : s.txAnswers = []) :
    transact cmd reply s = s.callOut (.write cmd) := by
  have hp' : (s.callOut (.write cmd)).phase ≠ .read := by simp [State.callOut, hp]
  refine transact_write_of_phase_ne_read hp ?_ hp'
  simp [writeAnswer, State.callOut, ha]

theorem transact_write_failed {a : WriteAnswer} {rest : List WriteAnswer}
    (ha : s.txAnswers = a :: rest) (hne : a ≠ .ok cmd.length) :
    transact cmd reply s = (afterSent cmd a rest (s.callOut (.write cmd))).postError :=
  transact_write_of_phase_ne_read hp
    (writeAnswer_failed (s := s.callOut (.write cmd)) hp rfl ha hne reply) (by simp)

/-- R74: the state a transaction without a reply ends in when its command went out in full. -/
theorem transact_sent {rest : List WriteAnswer} (ha : s.txAnswers = .ok cmd.length :: rest) :
    transact cmd false s =
      { s with phase := .done, resErr := false, resVal := 0x0000#16, outstanding := false,
               tx := s.tx ++ cmd, calls := s.calls ++ (if s.outstanding then [] else [.write cmd]),
               txAnswers := rest } :=
  transact_write_of_phase_ne_read hp
    (writeAnswer_whole (s := s.callOut (.write cmd)) hp rfl ha false) nofun

/-- R74, R75: a transaction with a reply goes on to the answer of its read. -/
theorem transact_reply {rest : List WriteAnswer} (ha : s.txAnswers = .ok cmd.length :: rest) :
    transact cmd true s = readAnswer (s.replyDue cmd rest) := by
  have hanswer := writeAnswer_whole (s := s.callOut (.write cmd)) hp rfl ha true
  rw [← writeIssue_write hp] at hanswer
  refine (congrArg (readAnswer ∘ readIssue) hanswer).trans ?_
  rw [writeIssue_write hp]
  rfl

end

end

/-! ### Completion -/

theorem exec_readVar (id : Byte) (s : State) :
    exec (.readVar id) s = .next (transact [0xA1#8, id] true s) := rfl

/-- Settles O40: from WRITE and from READ the read's answer is two bytes. -/
theorem readVarCommandCompletes : Obligations.ReadVarCommandCompletes := by
  refine ⟨fun s id b0 b1 ta ra hp ha hr => ?_, fun s id b0 b1 ra hp hr => ?_⟩
  · rw [exec_readVar, transact_reply (cmd := [0xA1#8, id]) hp ha,
      readAnswer_reply (s := s.replyDue _ ta) rfl rfl hr, ← State.replyDue_calls _ ta]
    rfl
  · rw [exec_readVar, transact_read_with_reply hp,
      readAnswer_reply (s := s.callOut (.read 2)) hp rfl hr]
    rfl

/-- Settles O41: no reply is due, so the write's answer completes the command. -/
theorem exitSafeStartCommandCompletes : Obligations.ExitSafeStartCommandCompletes :=
  fun _ _ hp ha => congrArg Host.Outcome.next (transact_sent (cmd := [0x83#8]) hp ha)

/-- Settles O42: as O41, with the opcode and the two fields as the command. -/
theorem setSpeedCommandsComplete : Obligations.SetSpeedCommandsComplete :=
  fun _ m _ hp ha =>
    ⟨congrArg Host.Outcome.next (transact_sent (cmd := [0x85#8, lowField m, highField m]) hp ha),
      congrArg Host.Outcome.next (transact_sent (cmd := [0x86#8, lowField m, highField m]) hp ha)⟩

/-! ### Failure -/

/-- Settles O45: the error is posted at the answer that failed, after the calls that were still due. -/
theorem failedAnswerEndsTheCommand : Obligations.FailedAnswerEndsTheCommand := by
  refine ⟨fun s i a ta hwire hp ha hne => ?_, fun s id r ta ra hr hbad hstart => ?_⟩
  · obtain ⟨k, hk, hsent⟩ := sentBytes_prefix (encode i).bytes s.draws a
    refine ⟨_, exec_wire hwire s, ?_⟩
    rw [transact_write_failed hp ha hne]
    exact ⟨rfl, rfl, rfl, rfl, rfl, rfl, rfl, ⟨k, hk, congrArg (s.tx ++ ·) hsent⟩, rfl, rfl, rfl,
      rfl, rfl, rfl, rfl⟩
  · obtain ⟨hok, hio⟩ := drop_takenCount s.draws s.rx r
    refine ⟨_, exec_readVar id s, ?_⟩
    obtain hp | ⟨hp, ha⟩ := hstart
    · rw [transact_read_with_reply hp, readAnswer_failed (s := s.callOut (.read 2)) hp rfl hr hbad]
      exact ⟨rfl, rfl, rfl, rfl, rfl, fun _ => ⟨rfl, rfl, rfl⟩, fun hw => by simp [hp] at hw, hok,
        hio, rfl, rfl, rfl, rfl, rfl⟩
    · rw [transact_reply (cmd := [0xA1#8, id]) hp ha,
        readAnswer_failed (s := s.replyDue _ ta) rfl rfl hr hbad]
      exact ⟨rfl, rfl, rfl, rfl, rfl, fun hw => by simp [hp] at hw,
        fun _ => ⟨s.replyDue_calls _ ta, rfl, rfl⟩, hok, hio, rfl, rfl, rfl, rfl, rfl⟩

/-! ### Waiting, and nothing to do -/

/-- Settles O46: without an answer the call is out and that is all; outside its phases no rule is enabled. -/
theorem wireCommandsWaitOrStandStill : Obligations.WireCommandsWaitOrStandStill := by
  refine ⟨fun s i hwire hp ha => ?_, fun s id hp hr => ?_, fun s i hwire hp => ?_,
    fun s i hwire hp hne => ?_⟩
  · rw [exec_wire hwire, transact_write_unanswered hp ha]
    rfl
  · have hwait : readAnswer (s.callOut (.read 2)) = s.callOut (.read 2) := by
      simp [readAnswer, State.callOut, hr]
    rw [exec_readVar, transact_read_with_reply hp, hwait]
    rfl
  · rw [exec_wire hwire, transact_idle_or_done hp]
  · have hsend : readsReply i = false := by
      rw [← Bool.not_eq_true, readsReply_iff]
      exact fun ⟨id, hid⟩ => hne id hid
    rw [exec_wire hwire, hsend, transact_read_without_reply hp]

end Sys2Proof.Machine
end

section
/-! What the host and the transport see of SPED (spec/00_scope.md section 4, spec/10_state.md R16, R28, R29): the
integer view of a result and the suggested ports. -/

namespace Sys2Proof.Machine

/-! ### R5: the integer view -/

theorem reading_range (op : Op) (v : Half) : -32768 ≤ reading op v ∧ reading op v ≤ 65535 := by
  have hlt := v.isLt
  cases op with
  | getspd =>
    obtain ⟨hlo, hhi⟩ := s16_range v
    exact ⟨hlo, hhi.trans (by decide)⟩
  | getvar | geterr | exitss | setspd =>
    simp only [reading]
    omega

theorem sentinel_out_of_range : Config.sentinel < -32768 ∨ 65535 < Config.sentinel := by
  unfold Config.sentinel
  split
  · omega
  · omega

/-- Settles O52: SENTINEL lies outside the range of every reading. -/
theorem sentinelDiffersFromEveryResult : Obligations.SentinelDiffersFromEveryResult := by
  refine ⟨sentinel_out_of_range, fun op v w heq => ?_⟩
  have hsame : Config.sentinel = reading op v := heq
  obtain ⟨hlo, hhi⟩ := reading_range op v
  obtain h | h := sentinel_out_of_range <;> omega

/-! ### R28, R29: the ports -/

/-- A command has one, two or three bytes, the widths of CMD1, CMD2 and CMD3. -/
theorem command_cases (s : State) :
    (∃ b, command s = [b]) ∨ (∃ b0 b1, command s = [b0, b1]) ∨ ∃ b0 b1 b2, command s = [b0, b1, b2] := by
  rw [command]
  cases s.opQ with
  | exitss => exact .inl ⟨_, rfl⟩
  | getvar | getspd | geterr => exact .inr (.inl ⟨_, _, rfl⟩)
  | setspd => exact .inr (.inr ⟨_, _, _, commandBytes_setspd s.argQ⟩)

theorem extract_lane_zero (b0 b1 b2 : Byte) : (b2 ++ b1 ++ b0).extractLsb' 0 8 = b0 :=
  BitVec.extractLsb'_append_eq_right

theorem extract_lane_one (b0 b1 b2 : Byte) : (b2 ++ b1 ++ b0).extractLsb' 8 8 = b1 := by
  rw [BitVec.extractLsb'_append_eq_of_le (le_refl 8)]
  exact BitVec.extractLsb'_append_eq_right

theorem extract_lane_two (b0 b1 b2 : Byte) : (b2 ++ b1 ++ b0).extractLsb' 16 8 = b2 := by
  rw [BitVec.extractLsb'_append_eq_of_le (show 8 ≤ 16 by decide)]
  exact BitVec.extractLsb'_append_eq_left

/-- D16: the three lanes, byte 0 lowest. -/
theorem extract_lane (b0 b1 b2 : Byte) :
    ∀ k < 3, some ((b2 ++ b1 ++ b0).extractLsb' (8 * k) 8) = [b0, b1, b2][k]?
  | 0, _ => congrArg some (extract_lane_zero b0 b1 b2)
  | 1, _ => congrArg some (extract_lane_one b0 b1 b2)
  | 2, _ => congrArg some (extract_lane_two b0 b1 b2)

theorem txLen_toNat (s : State) : (txLen s).toNat = (command s).length := by
  unfold txLen
  obtain ⟨b, hcmd⟩ | ⟨b0, b1, hcmd⟩ | ⟨b0, b1, b2, hcmd⟩ := command_cases s <;> rw [hcmd] <;> rfl

/-- The command fills the lanes from the first on. -/
theorem command_prefix_lanes (s : State) (x y z : Byte) :
    command s <+: [(command s).getD 0 x, (command s).getD 1 y, (command s).getD 2 z] := by
  obtain ⟨b, hcmd⟩ | ⟨b0, b1, hcmd⟩ | ⟨b0, b1, b2, hcmd⟩ := command_cases s <;> rw [hcmd]
  · exact ⟨[y, z], rfl⟩
  · exact ⟨[z], rfl⟩
  · exact ⟨[], rfl⟩

/-- R29: lane `k` of `tx_data` is byte `k` of the command. -/
theorem txData_lane (s : State) {k : Nat} (hk : k < (command s).length) :
    some ((txData s).extractLsb' (8 * k) 8) = (command s)[k]? := by
  have hpre := command_prefix_lanes s 0#8 (Config.freeLane (2 * s.draws + 1))
    (Config.freeLane (2 * s.draws))
  have hlt : k < 3 := hk.trans_le hpre.length_le
  obtain ⟨free, hlanes⟩ := hpre
  rw [← List.getElem?_append_left hk, hlanes]
  exact extract_lane _ _ _ k hlt

/-- R29: under the invariant exactly the outstanding call is presented. -/
theorem presented_eq_outstanding {s : State} (h : SequencerInv s) :
    (txValid s || rxValid s) = s.outstanding ∧ (txValid s && rxValid s) = false := by
  cases ho : s.outstanding with
  | false => simp [txValid, rxValid, ho]
  | true => obtain hp | hp := h.call_only_when_busy ho <;> simp [txValid, rxValid, ho, hp]

/-- Settles O53: each port by the register or the command it shows. -/
theorem portsShowTheStateOfTheOperation : Obligations.PortsShowTheStateOfTheOperation := by
  refine ⟨fun s => ⟨decide_eq_true_iff, decide_eq_true_iff⟩, fun s => presented_eq_outstanding,
    fun s => ⟨txLen_toNat s, fun k => txData_lane s⟩, fun data => judgeRead_ok_iff.mpr rfl⟩

end Sys2Proof.Machine
end
